-- ==== Sys2Proof/Word.lean ====
section
/-! DEFINITION. The widths of `00_scope.md` rule R10, one name each. Bit 0 of every value is its least
significant bit and every value is unsigned (R11). -/

namespace Sys2Proof

/-- Eight bits: a ROM sample, a ROM address, OUT, PHASE, a selector port value (R10). -/
abbrev Byte := BitVec 8

/-- An electrical level of a one-bit signal: 0 low, 1 high (R39). -/
abbrev Level := BitVec 1

/-- Sixteen bits: TOP, CNT and the argument of `SETTOP` (R10). -/
abbrev TopValue := BitVec 16

/-- The 20-bit event word (R37). -/
abbrev EventWord := BitVec 20

end Sys2Proof
end

