-- ==== Sys2Proof/Syntax.lean ====
section
/-! DEFINITION. The seven operations of `00_scope.md` rule R4, the pseudo-operations of `30_encoding.md` rule
R44, and what the environment can present to the block: a stored event word (R30) or the input signals at
one rising clock edge (R40). -/

namespace Sys2Proof

/-- One event: an operation of R4 with its argument. The argument types are the fields of R39, so every
term is an event the block takes. -/
inductive Instr where
  /-- `RESET l` (R68): boot with the transmit-enable pin at level `l`. -/
  | reset (l : Level)
  /-- `TICK` (R48): one timer period event. -/
  | tick
  /-- `EDGE l` (R53): the gate handler finds the pin at level `l`. -/
  | edge (l : Level)
  /-- `PIN l` (R52): one sample of the pin. -/
  | pin (l : Level)
  /-- `SETTOP v` (R56): one write of the timer's top value. -/
  | setTop (v : TopValue)
  /-- `CLK` (R60): one clock of the reference timer. -/
  | clk
  /-- `SELECT p` (R65): one pass of the selector loop, the port at `p`. -/
  | select (p : Byte)
  deriving DecidableEq, Repr

/-- The pseudo-operations of R44. -/
inductive Pseudo where
  | gateOn
  | gateOff
  | key
  | unkey
  | ticks (n : Nat)
  | clks (n : Nat)
  | boot
  deriving DecidableEq, Repr

/-- The inputs of composition A at one rising edge of `clk` (R40). -/
structure PortsA where
  rst  : BitVec 1
  txEn : Level
  tick : BitVec 1
  deriving DecidableEq, Repr

/-- The inputs of composition B at one rising edge of `clk` (R40). -/
structure PortsB where
  rst   : BitVec 1
  txEn  : Level
  selIn : Byte
  deriving DecidableEq, Repr

/-- One thing the environment presents: an event word as stored in three bytes, lowest address first (R30),
or one clock cycle of a composition (R41). -/
inductive Input where
  | word (b0 b1 b2 : Byte)
  | cycleA (p : PortsA)
  | cycleB (p : PortsB)
  deriving DecidableEq, Repr

end Sys2Proof
end

