-- ==== Sys2Proof/Decode.lean ====
section
/-! DEFINITION. The event word of `30_encoding.md` rules R37 to R39 and R42, its storage in bytes
(`20_memory.md` rule R30), the decoder and, after it, the encoder. The encoding is the spec's own (D8, D15). -/

namespace Sys2Proof

/-- Why a word encodes no event. -/
inductive DecodeError where
  /-- The third stored byte has a bit above bit 3 set (R30). -/
  | nonzeroPadding
  /-- `op` is 0x7 to 0xF (R42). -/
  | reservedOp
  /-- A bit of `arg` that the layout does not use is one (R39, R42). -/
  | reservedArg
  deriving DecidableEq, Repr

/-- What the decoder answers: an event, or `invalid` with the reason (R42). -/
inductive Decoded where
  | event (i : Instr)
  | invalid (e : DecodeError)
  deriving DecidableEq, Repr

/-- Field `op`, bits 19 to 16 (R37). -/
def opField (w : EventWord) : BitVec 4 := w.extractLsb' 16 4

/-- Field `arg`, bits 15 to 0 (R37). -/
def argField (w : EventWord) : BitVec 16 := w.extractLsb' 0 16

/-- `arg = 0` for an operation without operand (R38). -/
def decodeNoArg (arg : BitVec 16) (i : Instr) : Decoded :=
  if arg = 0 then .event i else .invalid .reservedArg

/-- `arg[0] = l`, `arg[15:1] = 0` (R38). -/
def decodeLevelArg (arg : BitVec 16) (mk : Level → Instr) : Decoded :=
  if arg.extractLsb' 1 15 = 0 then .event (mk (arg.extractLsb' 0 1)) else .invalid .reservedArg

/-- `arg[7:0] = p`, `arg[15:8] = 0` (R38). -/
def decodeByteArg (arg : BitVec 16) (mk : Byte → Instr) : Decoded :=
  if arg.extractLsb' 8 8 = 0 then .event (mk (arg.extractLsb' 0 8)) else .invalid .reservedArg

/-- The operation codes of R38; 0x7 to 0xF are reserved (R42). -/
def decodeFields (op : BitVec 4) (arg : BitVec 16) : Decoded :=
  if op = 0x0 then decodeLevelArg arg .reset
  else if op = 0x1 then decodeNoArg arg .tick
  else if op = 0x2 then decodeLevelArg arg .edge
  else if op = 0x3 then decodeLevelArg arg .pin
  else if op = 0x4 then .event (.setTop arg)
  else if op = 0x5 then decodeNoArg arg .clk
  else if op = 0x6 then decodeByteArg arg .select
  else .invalid .reservedOp

/-- The event a 20-bit word encodes (R37, R38). -/
def decodeWord (w : EventWord) : Decoded := decodeFields (opField w) (argField w)

/-- The 20-bit word in three stored bytes, least significant byte first (R30). -/
def wordOfBytes (b0 b1 b2 : Byte) : EventWord := b2.extractLsb' 0 4 ++ (b1 ++ b0)

/-- The event stored in three bytes; the top four bits of the third are zero (R30). -/
def decodeStored (b0 b1 b2 : Byte) : Decoded :=
  if b2.extractLsb' 4 4 = 0 then decodeWord (wordOfBytes b0 b1 b2) else .invalid .nonzeroPadding

/-- Byte number `k` of the bits the opcode table numbers, those at and above `nbits` zero. -/
def tableByte (nbits w k : Nat) : Byte := BitVec.ofNat 8 (w % 2 ^ nbits / 256 ^ k)

/-- What the decoder reads from an instruction whose bits are `w` as `opcode_table.json` numbers them: one
event word, stored in three bytes (R30). -/
def decodeTableWord (nbits w : Nat) : Option Instr :=
  match decodeStored (tableByte nbits w 0) (tableByte nbits w 1) (tableByte nbits w 2) with
  | .event i => some i
  | .invalid _ => none

/-- `op` above `arg` (R37). -/
def eventWord (op : BitVec 4) (arg : BitVec 16) : EventWord := op ++ arg

/-- The event word of an event (R38). -/
def encode : Instr → EventWord
  | .reset l => eventWord 0x0 (l.setWidth 16)
  | .tick => eventWord 0x1 0
  | .edge l => eventWord 0x2 (l.setWidth 16)
  | .pin l => eventWord 0x3 (l.setWidth 16)
  | .setTop v => eventWord 0x4 v
  | .clk => eventWord 0x5 0
  | .select p => eventWord 0x6 (p.setWidth 16)

/-- Byte 0 of a stored event word (R30). -/
def storedByte0 (w : EventWord) : Byte := w.extractLsb' 0 8

/-- Byte 1 of a stored event word (R30). -/
def storedByte1 (w : EventWord) : Byte := w.extractLsb' 8 8

/-- Byte 2 of a stored event word, its top four bits zero (R30). -/
def storedByte2 (w : EventWord) : Byte := (w.extractLsb' 16 4).setWidth 8

/-- An event as the environment presents it (R30, R38). -/
def storedInput (i : Instr) : Input :=
  .word (storedByte0 (encode i)) (storedByte1 (encode i)) (storedByte2 (encode i))

end Sys2Proof
end

