-- ==== Sys2Proof/Machine/Period.lean ====
section
/-! DEFINITION. The two integer divisions of `43_frequency_selector.md` rule R64. -/

namespace Sys2Proof.Machine

/-- SCALING of R9 and R64, from the timer clock in hertz; the division truncates, after the product
(D14). -/
def scaling (timerClockHz : Nat) : Nat := 10 * timerClockHz / 256

/-- The period of R64 for a target frequency in tenths of a hertz. Nothing subtracts one (C4). -/
def periodOf (timerClockHz dhz : Nat) : Nat := scaling timerClockHz / dhz

end Sys2Proof.Machine
end

