-- ==== Sys2Proof/Machine/Rom.lean ====
section
/-! DEFINITION. The contents of the sine ROM as `10_state.md` rule R22 prints them: row `r` of the table holds
the indices `16 r` to `16 r + 15`. That this table, rounded to nearest, is the ROM is decision D2 (DESIGN CHOICE of the
spec, log 11); the machine reads `Config.waveRom`, of which this is the default. -/

namespace Sys2Proof.Machine

/-- R22, indices 0 to 15. -/
def sineRow0 : List Byte := [128, 131, 134, 137, 140, 144, 147, 150, 153, 156, 159, 162, 165, 168, 171, 174]

/-- R22, indices 16 to 31. -/
def sineRow1 : List Byte := [177, 179, 182, 185, 188, 191, 193, 196, 199, 201, 204, 206, 209, 211, 213, 216]

/-- R22, indices 32 to 47. -/
def sineRow2 : List Byte := [218, 220, 222, 224, 226, 228, 230, 232, 234, 235, 237, 239, 240, 241, 243, 244]

/-- R22, indices 48 to 63. -/
def sineRow3 : List Byte := [245, 246, 248, 249, 250, 250, 251, 252, 253, 253, 254, 254, 254, 255, 255, 255]

/-- R22, indices 64 to 79. -/
def sineRow4 : List Byte := [255, 255, 255, 255, 254, 254, 254, 253, 253, 252, 251, 250, 250, 249, 248, 246]

/-- R22, indices 80 to 95. -/
def sineRow5 : List Byte := [245, 244, 243, 241, 240, 239, 237, 235, 234, 232, 230, 228, 226, 224, 222, 220]

/-- R22, indices 96 to 111. -/
def sineRow6 : List Byte := [218, 216, 213, 211, 209, 206, 204, 201, 199, 196, 193, 191, 188, 185, 182, 179]

/-- R22, indices 112 to 127. -/
def sineRow7 : List Byte := [177, 174, 171, 168, 165, 162, 159, 156, 153, 150, 147, 144, 140, 137, 134, 131]

/-- R22, indices 128 to 143. -/
def sineRow8 : List Byte := [128, 125, 122, 119, 116, 112, 109, 106, 103, 100, 97, 94, 91, 88, 85, 82]

/-- R22, indices 144 to 159. -/
def sineRow9 : List Byte := [79, 77, 74, 71, 68, 65, 63, 60, 57, 55, 52, 50, 47, 45, 43, 40]

/-- R22, indices 160 to 175. -/
def sineRow10 : List Byte := [38, 36, 34, 32, 30, 28, 26, 24, 22, 21, 19, 17, 16, 15, 13, 12]

/-- R22, indices 176 to 191. -/
def sineRow11 : List Byte := [11, 10, 8, 7, 6, 6, 5, 4, 3, 3, 2, 2, 2, 1, 1, 1]

/-- R22, indices 192 to 207. -/
def sineRow12 : List Byte := [1, 1, 1, 1, 2, 2, 2, 3, 3, 4, 5, 6, 6, 7, 8, 10]

/-- R22, indices 208 to 223. -/
def sineRow13 : List Byte := [11, 12, 13, 15, 16, 17, 19, 21, 22, 24, 26, 28, 30, 32, 34, 36]

/-- R22, indices 224 to 239. -/
def sineRow14 : List Byte := [38, 40, 43, 45, 47, 50, 52, 55, 57, 60, 63, 65, 68, 71, 74, 77]

/-- R22, indices 240 to 255. -/
def sineRow15 : List Byte := [79, 82, 85, 88, 91, 94, 97, 100, 103, 106, 109, 112, 116, 119, 122, 125]

/-- The 256 samples of R22 in order. -/
def sineSamples : List Byte :=
  sineRow0 ++ sineRow1 ++ sineRow2 ++ sineRow3 ++ sineRow4 ++ sineRow5 ++ sineRow6 ++ sineRow7 ++
  sineRow8 ++ sineRow9 ++ sineRow10 ++ sineRow11 ++ sineRow12 ++ sineRow13 ++ sineRow14 ++ sineRow15

/-- R22: "It has 256 entries". -/
theorem sineSamples_length : sineSamples.length = 256 := by
  unfold sineSamples
  repeat rw [List.length_append]
  rfl

/-- The sine ROM of R22: 256 entries of eight bits, every address populated (R27). -/
def sineRom : Vector Byte 256 := ⟨sineSamples.toArray, sineSamples_length⟩

end Sys2Proof.Machine
end

