-- ==== Sys2Proof/Config.lean ====
section
/-! DEFINITION. The parameters of `00_scope.md` rules R7 to R9, fixed for a run, and the values the spec leaves
open. A configuration carries the proof that it is well formed, so a run of an ill-formed one cannot be
written down (R9, R80; log 3). -/

namespace Sys2Proof

/-- The `OPEN` parameters of the two boundary blocks (R9). -/
structure BoundaryData where
  /-- TIMER_CLOCK_HZ. -/
  timerClockHz : Nat
  /-- SEL_TABLE as a list of masked code and tenths of a hertz (log 17). -/
  selTable     : List (Byte × Nat)
  /-- FALLBACK_DHZ, in tenths of a hertz. -/
  fallbackDhz  : Nat
  deriving DecidableEq, Repr

/-- R9's bound for one target frequency: `1 <= floor(SCALING / f) <= 65535`. It excludes `f = 0`. -/
def periodFits (timerClockHz dhz : Nat) : Bool :=
  decide (1 ≤ Machine.periodOf timerClockHz dhz) && decide (Machine.periodOf timerClockHz dhz ≤ 65535)

/-- No code has two entries, so that the list is a partial function (R9). -/
def BoundaryData.codesDistinct (b : BoundaryData) : Bool := decide (b.selTable.map Prod.fst).Nodup

/-- R9's well-formedness of a configuration: the bound for every frequency of the table and for the
fallback. -/
def BoundaryData.wf (b : BoundaryData) : Bool :=
  periodFits b.timerClockHz b.fallbackDhz &&
    (b.selTable.all (fun e => periodFits b.timerClockHz e.2) && b.codesDistinct)

/-- What R9, R46 and R63 state of the real table beside well-formedness: 38 codes, six-bit codes,
0x3F gives 670. -/
def BoundaryData.documented (b : BoundaryData) : Bool :=
  decide (b.selTable.length = 38) &&
    (b.selTable.all (fun e => decide (e.1 < 0x40#8)) && decide (b.selTable.lookup 0x3F#8 = some 670))

/-- A well-formed choice of the boundary parameters. -/
structure Boundary extends BoundaryData where
  ok : toBoundaryData.wf = true
  deriving DecidableEq, Repr

/-- Shows that a well-formed documented choice exists, and nothing else: its pairs but for 0x3F, its clock and
its fallback are not the hardware's and nothing of the machine uses them. -/
def Boundary.existsOne : Boundary where
  timerClockHz := 8000000
  selTable := (List.range 38).map fun i => (BitVec.ofNat 8 (0x3F - i), 670)
  fallbackDhz := 500
  ok := by decide

/-- A well-formed choice that also meets what the spec states of the real table. -/
structure DocumentedBoundary where
  boundary : Boundary := Boundary.existsOne
  documented : boundary.documented = true := by decide
  deriving Inhabited

/-- The hardware's own TIMER_CLOCK_HZ, SEL_TABLE and FALLBACK_DHZ: `OPEN` (R9, D20, U10), so a constant
nothing is known of but that it is well formed and documented (log 4). -/
opaque Config.openBoundary : DocumentedBoundary

/-- The value TOP takes at the n-th reset: unspecified, "a draw" (R21, R68, U1), so a constant nothing is
known of (log 1). -/
opaque Config.topAfterReset : Nat → TopValue

/-- The parameters of a run (R7, R8, R9). -/
structure Config where
  /-- ACTIVE_LEVEL (R7). -/
  activeLevel : Level
  /-- WAVE_ROM (R8, R22, R27). -/
  waveRom     : Vector Byte 256
  /-- SEL_MASK (R9, R62, U3). -/
  selMask     : Byte
  /-- The parameters of the timer and the selector (R9). -/
  boundary    : Boundary
  deriving DecidableEq, Repr

/-- The spec's defaults (R7 and D3, R22 and D2, R9 and D13) with the open boundary parameters. -/
def Config.standard : Config where
  activeLevel := 1
  waveRom := Machine.sineRom
  selMask := 0xBF
  boundary := Config.openBoundary.boundary

end Sys2Proof
end

