-- ==== Sys2Proof/Machine/State.lean ====
section
/-! DEFINITION. The state tuple of `10_state.md` rule R15, the run's configuration, and the model's own
bookkeeping of the environment; the reasons a step can stop; the machine right after reset. -/

namespace Sys2Proof.Machine

/-- GATE (R17): the gate state and the timer's counting-enable bit in one. -/
inductive GateState where
  | disabled
  | enabled
  deriving DecidableEq, Repr

/-- Everything a run holds. The first six fields are R15's tuple. -/
structure State where
  /-- PHASE (R16): the phase accumulator, the index of the next sample. -/
  phase      : Byte
  /-- OUT (R18): the output port register. -/
  out        : Byte
  /-- GATE (R17). -/
  gate       : GateState
  /-- EN_PREV (R19): the pin level at the last sample or at reset. -/
  enPrev     : Level
  /-- TOP (R21): the timer's top-value register. -/
  top        : TopValue
  /-- CNT (R23): the reference timer's count. -/
  cnt        : TopValue
  /-- The parameters of the run (R7 to R9); no event writes them (log 3). -/
  cfg        : Config
  /-- The model's own: has a `RESET` happened (R83, U7; log 7). -/
  resetSeen  : Bool
  /-- The model's own: how many values of TOP have been drawn at resets (U1; log 1). -/
  resetDraws : Nat
  /-- The model's own: what the environment has ready, oldest first (R13; log 5). -/
  inputs     : List Input
  deriving DecidableEq, Repr

/-- No fault exists: "A model's step function therefore never returns a fault for a well-formed event"
(R75). Nobody raises one; a type without constructors says so (log 16). -/
inductive Fault where
  deriving DecidableEq, Repr

/-- What the model's boundary refuses (R80). Every one is safe: it gives a run no meaning and so proves
nothing of it. -/
inductive Refusal where
  /-- An operation without a meaning. Raised by an arm of `exec` that has none; safe. -/
  | notModelled (mnemonic : String)
  /-- A word whose `op` is 0x7 to 0xF (R42, U8). Raised by `step`; safe. -/
  | reservedOperation
  /-- A word with a one in an unused bit of `arg` (R42, U8). Raised by `step`; safe. -/
  | reservedArgument
  /-- A stored word whose third byte has one of its top four bits set (R30). Raised by `step`; safe. -/
  | nonzeroPadding
  /-- An event before the first `RESET` (R83, U7). Raised by `step`; safe. -/
  | eventBeforeReset
  /-- A configuration that breaks R9's condition (R9, R80). Raised by `configure`; safe. -/
  | illFormedConfiguration
  deriving DecidableEq, Repr

/-- The machine right after reset (R82). PHASE, OUT, GATE and CNT are the spec's; TOP is a draw (log 1); EN_PREV
is the level of a pin that is low (log 2); the configuration is the spec's defaults (log 3, log 4). -/
def State.reset : State where
  phase := 0
  out := 0x00
  gate := .disabled
  enPrev := 0
  top := Config.topAfterReset 0
  cnt := 0
  cfg := Config.standard
  resetSeen := true
  resetDraws := 1
  inputs := []

end Sys2Proof.Machine
end

