-- ==== Sys2Proof/Machine/Flags.lean ====
section
/-! DEFINITION. GATE is the only status bit (`10_state.md` section 4): its coding (R17), the two actions of the
gate on the timer (R53, R57), and what the outside sees of it. There are no condition codes and no carry. -/

namespace Sys2Proof.Machine

/-- `1 = enabled`, `0 = disabled` (R17). -/
def gateCode : GateState → BitVec 1
  | .disabled => 0
  | .enabled => 1

/-- The pin `count_en` shows GATE (R17, R40). -/
def State.countEn (s : State) : BitVec 1 := gateCode s.gate

/-- "start the timer's counting": GATE <- enabled (R53, R57). -/
def State.startCounting (s : State) : State := { s with gate := .enabled }

/-- "stop the timer's counting": GATE <- disabled; CNT holds (R23, R53, R57). -/
def State.stopCounting (s : State) : State := { s with gate := .disabled }

end Sys2Proof.Machine
end

