-- ==== Sys2Proof/Machine/Operands.lean ====
section
/-! DEFINITION. The operand forms: a pin level against ACTIVE_LEVEL (`00_scope.md` rules R7 and R12), and a
selector port value through mask, table and division (`43_frequency_selector.md` rules R62 to R64). -/

namespace Sys2Proof.Machine

/-- `ACTIVE` of R12. -/
def activeOf (c : Config) : Level := c.activeLevel

/-- `INACTIVE = 1 - ACTIVE_LEVEL` of R12. -/
def inactiveOf (c : Config) : Level := 1 - c.activeLevel

/-- R62: `code = p AND SEL_MASK`. -/
def maskedCode (c : Config) (p : Byte) : Byte := p &&& c.selMask

/-- R63: the table's frequency where the code is known, else the fallback, in tenths of a hertz. -/
def targetDhz (c : Config) (code : Byte) : Nat :=
  (c.boundary.selTable.lookup code).getD c.boundary.fallbackDhz

/-- R64: the period for a port value, as a number. -/
def selectedPeriod (c : Config) (p : Byte) : Nat :=
  periodOf c.boundary.timerClockHz (targetDhz c (maskedCode c p))

end Sys2Proof.Machine
end

