-- ==== Sys2Proof/WellFormed.lean ====
section
/-! DEFINITION. What the model's boundary checks (`60_exceptions.md` rule R80). An event has nothing to check: the
argument types of `Instr` are the fields of R39 and every argument is legal (R75). A configuration is checked
by `BoundaryData.wf` (R9, in Config.lean). What is checked here is a sequence of events. -/

namespace Sys2Proof

/-- Is this event a `RESET`? -/
def Instr.isReset : Instr → Bool
  | .reset _ => true
  | .tick => false
  | .edge _ => false
  | .pin _ => false
  | .setTop _ => false
  | .clk => false
  | .select _ => false

/-- R6 and R83: a run is a sequence of events that starts with `RESET`. -/
def startsWithReset : List Instr → Bool
  | [] => false
  | i :: _ => i.isReset

end Sys2Proof
end

