-- ==== Sys2Proof/Machine/Ops.lean ====
section
/-! DEFINITION. The named operations over the state: the writes of single elements, `RomRead` and `OutWrite`
(`20_memory.md` rules R26 and R28), and the effects that one event performs inside another (`do OP arg`,
`00_scope.md` rule R12). Taking an event is applying one of them in one atomic step: nothing is saved, no mode
changes, there is no return (`60_exceptions.md` rules R74 and R76), so there is no exception entry to share. -/

namespace Sys2Proof.Machine

/-- `OutWrite(v)`: all eight bits of OUT at once (R28). -/
def State.outWrite (s : State) (v : Byte) : State := { s with out := v }

/-- Write of PHASE (R16). -/
def State.writePhase (s : State) (v : Byte) : State := { s with phase := v }

/-- Write of EN_PREV (R19). -/
def State.writeEnPrev (s : State) (l : Level) : State := { s with enPrev := l }

/-- Write of TOP, one atomic 16-bit write (R32). -/
def State.writeTop (s : State) (v : TopValue) : State := { s with top := v }

/-- Write of CNT (R23). -/
def State.writeCnt (s : State) (v : TopValue) : State := { s with cnt := v }

/-- TOP takes an unspecified value, a new draw each time (R68, U1). -/
def State.drawTop (s : State) : State :=
  { s with top := Config.topAfterReset s.resetDraws, resetDraws := s.resetDraws + 1 }

/-- A `RESET` has happened (R83). -/
def State.markReset (s : State) : State := { s with resetSeen := true }

/-- The environment's list of what it has ready. -/
def State.writeInputs (s : State) (is : List Input) : State := { s with inputs := is }

/-- `RomRead(a)`: defined for every address, no side effect (R26, R27). -/
def State.romRead (s : State) (a : Byte) : Byte := s.cfg.waveRom.get a.toFin

/-- `do TICK` (R48): the sample at the phase before the advance, then the advance, wrapping at 256; ignored
while the gate is disabled (D5). -/
def State.doTick (s : State) : State :=
  match s.gate with
  | .enabled => (s.outWrite (s.romRead s.phase)).writePhase (s.phase + 1)
  | .disabled => s

/-- The disable arm of R53: stop counting, clear PHASE, force OUT to zero. -/
def State.gateOff (s : State) : State := (s.stopCounting.writePhase 0).outWrite 0x00

/-- `do EDGE l` (R53): the level alone chooses the arm. -/
def State.doEdge (s : State) (l : Level) : State :=
  if l = activeOf s.cfg then s.startCounting else s.gateOff

/-- `PIN l` (R52): any change of level is an edge. -/
def State.doPin (s : State) (l : Level) : State :=
  if l = s.enPrev then s else (s.writeEnPrev l).doEdge l

/-- `do SETTOP v` (R56). -/
def State.doSetTop (s : State) (v : TopValue) : State := s.writeTop v

/-- `CLK` (R60): count to TOP, equality compare, wrap at 65536; the match is the period event. -/
def State.doClk (s : State) : State :=
  match s.gate with
  | .enabled => if s.cnt = s.top then (s.writeCnt 0).doTick else s.writeCnt (s.cnt + 1)
  | .disabled => s

/-- `SELECT p` (R65). The period fits sixteen bits in every configuration (R9, R64). -/
def State.doSelect (s : State) (p : Byte) : State :=
  s.doSetTop (BitVec.ofNat 16 (selectedPeriod s.cfg p))

/-- `RESET l` (R68): loads every state element. -/
def State.doReset (s : State) (l : Level) : State :=
  ((((((s.writePhase 0).outWrite 0x00).stopCounting).writeEnPrev l).writeCnt 0).drawTop).markReset

/-- The configuration a run takes, checked before any run (R9, R80). -/
def configure (activeLevel : Level) (waveRom : Vector Byte 256) (selMask : Byte) (b : BoundaryData) (s : State) :
    Host.Outcome State Fault Refusal :=
  if h : b.wf = true then
    .next { s with cfg := { activeLevel, waveRom, selMask, boundary := { toBoundaryData := b, ok := h } } }
  else .refused .illFormedConfiguration

end Sys2Proof.Machine
end

