-- ==== Sys2Proof/Machine/Gate.lean ====
section
/-! DEFINITION. The transmit gate and its edge detector (`41_tone_gate.md`). -/

namespace Sys2Proof.Machine

/-- `EDGE l` (R53). -/
def execEdge (l : Level) (s : State) : Host.Outcome State Fault Refusal := .next (s.doEdge l)

/-- `PIN l` (R52). -/
def execPin (l : Level) (s : State) : Host.Outcome State Fault Refusal := .next (s.doPin l)

end Sys2Proof.Machine
end

