-- ==== Sys2Proof/Machine/Selector.lean ====
section
/-! DEFINITION. The frequency selector (`43_frequency_selector.md`). -/

namespace Sys2Proof.Machine

/-- `SELECT p` (R65). -/
def execSelect (p : Byte) (s : State) : Host.Outcome State Fault Refusal := .next (s.doSelect p)

end Sys2Proof.Machine
end

