-- ==== Sys2Proof/Machine/System.lean ====
section
/-! DEFINITION. The system operation (`44_system.md`). -/

namespace Sys2Proof.Machine

/-- `RESET l` (R68). -/
def execReset (l : Level) (s : State) : Host.Outcome State Fault Refusal := .next (s.doReset l)

end Sys2Proof.Machine
end

