-- ==== Sys2Proof/Machine/Timer.lean ====
section
/-! DEFINITION. The timer port and the reference timer (`42_timer_port.md`). -/

namespace Sys2Proof.Machine

/-- `SETTOP v` (R56). -/
def execSetTop (v : TopValue) (s : State) : Host.Outcome State Fault Refusal := .next (s.doSetTop v)

/-- `CLK` (R60). -/
def execClk (s : State) : Host.Outcome State Fault Refusal := .next s.doClk

end Sys2Proof.Machine
end

