-- ==== Sys2Proof/Machine/Waveform.lean ====
section
/-! DEFINITION. The waveform driver (`40_waveform_driver.md`). -/

namespace Sys2Proof.Machine

/-- `TICK` (R48). -/
def execTick (s : State) : Host.Outcome State Fault Refusal := .next s.doTick

end Sys2Proof.Machine
end

