-- ==== Sys2Proof/Machine/Dispatch.lean ====
section
/-! DEFINITION. One arm per operation of `00_scope.md` rule R4. -/

namespace Sys2Proof.Machine

def exec (i : Instr) (s : State) : Host.Outcome State Fault Refusal :=
  match i with
  | .reset l => Sys2Proof.Machine.execReset l s
  | .tick => Sys2Proof.Machine.execTick s
  | .edge l => Sys2Proof.Machine.execEdge l s
  | .pin l => Sys2Proof.Machine.execPin l s
  | .setTop v => Sys2Proof.Machine.execSetTop v s
  | .clk => Sys2Proof.Machine.execClk s
  | .select p => Sys2Proof.Machine.execSelect p s

end Sys2Proof.Machine
end

