-- ==== Sys2Proof/Machine/Run.lean ====
section
/-! DEFINITION. Sequences of events (`00_scope.md` rule R6, `20_memory.md` rule R34) and the boundary check on how a
run begins (`70_reset_and_hazards.md` rule R83). -/

namespace Sys2Proof.Machine

/-- The events one after the other, each on the state the one before it left (R34). -/
def runEvents : List Instr → State → Host.Outcome State Fault Refusal
  | [], s => .next s
  | i :: is, s =>
    match exec i s with
    | .next t => runEvents is t
    | .fault r => .fault r
    | .refused r => .refused r

/-- The events of one step; before the first `RESET` only a sequence that begins with one has a meaning
(R83, U7). -/
def takeEvents (is : List Instr) (s : State) : Host.Outcome State Fault Refusal :=
  if (s.resetSeen || startsWithReset is) = true then runEvents is s else .refused .eventBeforeReset

/-- How a reserved word is refused (R42, R80). -/
def refusalOf : DecodeError → Refusal
  | .nonzeroPadding => .nonzeroPadding
  | .reservedOp => .reservedOperation
  | .reservedArg => .reservedArgument

/-- A stored event word, decoded and taken (R30, R37, R42). -/
def takeWord (b0 b1 b2 : Byte) (s : State) : Host.Outcome State Fault Refusal :=
  match decodeStored b0 b1 b2 with
  | .event i => takeEvents [i] s
  | .invalid e => .refused (refusalOf e)

/-- A stimulus placed behind what the environment already has ready (log 5). -/
def State.load (s : State) (is : List Instr) : State := s.writeInputs (s.inputs ++ is.map storedInput)

end Sys2Proof.Machine
end

