-- ==== Sys2Proof/Machine/Ports.lean ====
section
/-! DEFINITION. The clocked port-level wrapper (`30_encoding.md` rules R40 and R41): what one rising edge of `clk`
performs, and what the output pins show. -/

namespace Sys2Proof.Machine

/-- The pins `dac_out[7:0]` show OUT (R18, R40). -/
def State.dacOut (s : State) : Byte := s.out

/-- R41, composition A: reset alone, else the gate and then the timer event. -/
def eventsOfCycleA (p : PortsA) : List Instr :=
  if p.rst = 1 then [.reset p.txEn]
  else if p.tick = 1 then [.pin p.txEn, .tick]
  else [.pin p.txEn]

/-- R41, composition B: reset alone, else the gate, the selector and the timer clock. -/
def eventsOfCycleB (p : PortsB) : List Instr :=
  if p.rst = 1 then [.reset p.txEn] else [.pin p.txEn, .select p.selIn, .clk]

/-- Whatever the environment presents, as one atomic step (R6, R41). -/
def takeInput (i : Input) (s : State) : Host.Outcome State Fault Refusal :=
  match i with
  | .word b0 b1 b2 => takeWord b0 b1 b2 s
  | .cycleA p => takeEvents (eventsOfCycleA p) s
  | .cycleB p => takeEvents (eventsOfCycleB p) s

end Sys2Proof.Machine
end

