-- ==== Sys2Proof/Machine/Step.lean ====
section
/-! DEFINITION. One step takes the oldest thing the environment has ready (`00_scope.md` rule R6); with nothing
ready no event happens and nothing changes (log 6). -/

namespace Sys2Proof.Machine

def step (s : State) : Host.Outcome State Fault Refusal :=
  match s.inputs with
  | [] => .next s
  | i :: rest => takeInput i (s.writeInputs rest)

/-- The word of the opcode table, stored as R30 says, is the next thing the environment presents. -/
def State.withFetchWord (s : State) (nbits w : Nat) : State :=
  s.writeInputs (.word (tableByte nbits w 0) (tableByte nbits w 1) (tableByte nbits w 2) :: s.inputs)

end Sys2Proof.Machine
end

