-- ==== Sys2Proof/Machine/Text.lean ====
section
/-! DEFINITION. The textual stimulus of `30_encoding.md` rules R43 and R44: one event a line, and the
pseudo-operations with their expansions. Text is a list of characters, so that it can be evaluated. -/

namespace Sys2Proof.Machine

/-- R44: the expansion of a pseudo-operation; the active level decides those about the gate and the pin. -/
def expand (c : Config) : Pseudo → List Instr
  | .gateOn => [.edge (activeOf c)]
  | .gateOff => [.edge (inactiveOf c)]
  | .key => [.pin (activeOf c)]
  | .unkey => [.pin (inactiveOf c)]
  | .ticks n => List.replicate n .tick
  | .clks n => List.replicate n .clk
  | .boot => [.reset (inactiveOf c)]

/-- A decimal digit, or none. -/
def decDigit (c : Char) : Option Nat :=
  if 48 ≤ c.toNat ∧ c.toNat ≤ 57 then some (c.toNat - 48) else none

/-- A hexadecimal digit, in either case, or none. -/
def hexDigit (c : Char) : Option Nat :=
  if 65 ≤ c.toNat ∧ c.toNat ≤ 70 then some (c.toNat - 55)
  else if 97 ≤ c.toNat ∧ c.toNat ≤ 102 then some (c.toNat - 87)
  else decDigit c

/-- The digits of a numeral in a base, most significant first, onto what has been read so far. -/
def readDigits (base : Nat) (digit : Char → Option Nat) : Nat → List Char → Option Nat
  | acc, [] => some acc
  | acc, c :: cs =>
    match digit c with
    | some d => readDigits base digit (base * acc + d) cs
    | none => none

/-- A numeral of R43: decimal, or hexadecimal after `0x`. -/
def readNumeral : List Char → Option Nat
  | '0' :: 'x' :: c :: cs => readDigits 16 hexDigit 0 (c :: cs)
  | c :: cs => readDigits 10 decDigit 0 (c :: cs)
  | [] => none

/-- `l` is written `0` or `1` (R43). -/
def readLevel : List Char → Option Level
  | ['0'] => some 0
  | ['1'] => some 1
  | _ => none

/-- A numeral that fits `n` bits. -/
def readBits (n : Nat) (t : List Char) : Option (BitVec n) :=
  match readNumeral t with
  | some v => if v < 2 ^ n then some (BitVec.ofNat n v) else none
  | none => none

/-- `#` starts a comment that runs to the end of the line (R43). -/
def dropComment (line : List Char) : List Char := line.takeWhile (fun c => c != '#')

/-- The tokens of a line, separated by blanks: spaces and tabs (log 18). The second argument is the token being
read. -/
def tokens : List Char → List Char → List (List Char)
  | [], [] => []
  | [], w => [w]
  | c :: cs, w =>
    if c = ' ' ∨ c = '\t' then
      match w with
      | [] => tokens cs []
      | _ :: _ => w :: tokens cs []
    else tokens cs (w ++ [c])

/-- The events of a line without argument: the mnemonics and pseudo-operations of R43 and R44. -/
def readPlain (c : Config) (m : List Char) : Option (List Instr) :=
  if m = ['T', 'I', 'C', 'K'] then some [.tick]
  else if m = ['C', 'L', 'K'] then some [.clk]
  else if m = ['G', 'A', 'T', 'E', '_', 'O', 'N'] then some (expand c .gateOn)
  else if m = ['G', 'A', 'T', 'E', '_', 'O', 'F', 'F'] then some (expand c .gateOff)
  else if m = ['K', 'E', 'Y'] then some (expand c .key)
  else if m = ['U', 'N', 'K', 'E', 'Y'] then some (expand c .unkey)
  else if m = ['B', 'O', 'O', 'T'] then some (expand c .boot)
  else none

/-- The events of a line with one argument: the mnemonics and pseudo-operations of R43 and R44. -/
def readWithArg (c : Config) (m a : List Char) : Option (List Instr) :=
  if m = ['R', 'E', 'S', 'E', 'T'] then (readLevel a).map fun l => [.reset l]
  else if m = ['E', 'D', 'G', 'E'] then (readLevel a).map fun l => [.edge l]
  else if m = ['P', 'I', 'N'] then (readLevel a).map fun l => [.pin l]
  else if m = ['S', 'E', 'T', 'T', 'O', 'P'] then (readBits 16 a).map fun v => [.setTop v]
  else if m = ['S', 'E', 'L', 'E', 'C', 'T'] then (readBits 8 a).map fun p => [.select p]
  else if m = ['T', 'I', 'C', 'K', 'S'] then (readNumeral a).map fun n => expand c (.ticks n)
  else if m = ['C', 'L', 'K', 'S'] then (readNumeral a).map fun n => expand c (.clks n)
  else none

/-- The events of one line; none where the line is not of the form of R43 or R44. -/
def readLine (c : Config) (line : List Char) : Option (List Instr) :=
  match tokens (dropComment line) [] with
  | [] => some []
  | [m] => readPlain c m
  | [m, a] => readWithArg c m a
  | _ :: _ :: _ :: _ => none

/-- The events of a whole stimulus, line by line (R43). -/
def readStimulus (c : Config) : List (List Char) → Option (List Instr)
  | [] => some []
  | line :: rest =>
    match readLine c line, readStimulus c rest with
    | some is, some js => some (is ++ js)
    | _, _ => none

/-- The character of a hexadecimal digit. -/
def hexChar (d : BitVec 4) : Char := Char.ofNat (if d.toNat < 10 then 48 + d.toNat else 55 + d.toNat)

/-- The text of a level. -/
def levelText (l : Level) : List Char := if l = 0 then ['0'] else ['1']

/-- One event as a line of R43, its number in hexadecimal. -/
def eventText : Instr → List Char
  | .reset l => ['R', 'E', 'S', 'E', 'T', ' '] ++ levelText l
  | .tick => ['T', 'I', 'C', 'K']
  | .edge l => ['E', 'D', 'G', 'E', ' '] ++ levelText l
  | .pin l => ['P', 'I', 'N', ' '] ++ levelText l
  | .setTop v => ['S', 'E', 'T', 'T', 'O', 'P', ' ', '0', 'x', hexChar (v.extractLsb' 12 4),
      hexChar (v.extractLsb' 8 4), hexChar (v.extractLsb' 4 4), hexChar (v.extractLsb' 0 4)]
  | .clk => ['C', 'L', 'K']
  | .select p => ['S', 'E', 'L', 'E', 'C', 'T', ' ', '0', 'x', hexChar (p.extractLsb' 4 4), hexChar (p.extractLsb' 0 4)]

end Sys2Proof.Machine
end

