-- ==== Sys2Proof/Machine/Timing.lean ====
section
/-! DEFINITION. Quantities about time that claims use (`42_timer_port.md` rules R59 and R61,
`70_reset_and_hazards.md` rule R89). "No rule of the machine depends on anything in this section." -/

namespace Sys2Proof.Machine

/-- How many clocks a counting reference timer takes up to and including its next period event, TOP left alone:
R61 items 2, 3 and 5 when CNT has not passed TOP, item 4 when it has. -/
def State.clocksToEvent (s : State) : Nat :=
  if s.cnt.toNat ≤ s.top.toNat then s.top.toNat - s.cnt.toNat + 1 else 65536 - s.cnt.toNat + s.top.toNat + 1

/-- The timer clocks of one sine cycle: 256 samples, TOP + 1 clocks each (R51, R59, R89). -/
def State.clocksPerCycle (s : State) : Nat := 256 * (s.top.toNat + 1)

/-- R89: the fundamental frequency of the output, in hertz. -/
def State.outputHz (s : State) : ℚ := s.cfg.boundary.timerClockHz / (256 * (s.top.toNat + 1) : ℚ)

end Sys2Proof.Machine
end

