-- ==== Sys2Proof/Safety.lean ====
section
/-! DEFINITION. What the spec promises of runs and assumes of the environment, in the terms claims use. -/

namespace Sys2Proof.Machine

/-- R25: while the gate is disabled PHASE is 0 and OUT is 0x00. -/
def Quiet (s : State) : Prop := s.gate = .disabled → s.phase = 0 ∧ s.out = 0x00

/-- R58: the environment presents a period event only while counting is enabled. The core does not rely on
it. -/
def timerContract (i : Instr) (s : State) : Bool :=
  match i with
  | .tick => decide (s.gate = .enabled)
  | .reset _ => true
  | .edge _ => true
  | .pin _ => true
  | .setTop _ => true
  | .clk => true
  | .select _ => true

/-- Does this event perform `EDGE` with this level at this state: `EDGE` itself, or a `PIN` that finds an edge
(R52)? -/
def performsEdge (i : Instr) (s : State) (l : Level) : Bool :=
  match i with
  | .edge k => decide (k = l)
  | .pin k => decide (k = l) && decide (k ≠ s.enPrev)
  | .reset _ => false
  | .tick => false
  | .setTop _ => false
  | .clk => false
  | .select _ => false

/-- Is this event an accepted tick at this state: `TICK`, or a `CLK` that matches, while the gate is enabled (R48,
R60)? -/
def acceptsTick (i : Instr) (s : State) : Bool :=
  match i with
  | .tick => decide (s.gate = .enabled)
  | .clk => decide (s.gate = .enabled) && decide (s.cnt = s.top)
  | .reset _ => false
  | .edge _ => false
  | .pin _ => false
  | .setTop _ => false
  | .select _ => false

/-- R50: an event that neither resets nor performs `EDGE` with the inactive level at this state. -/
def keepsTone (i : Instr) (s : State) : Bool := !i.isReset && !performsEdge i s (inactiveOf s.cfg)

/-- Every event of the sequence keeps the tone at the state it meets. -/
def keepsToneAlong : List Instr → State → Bool
  | [], _ => true
  | i :: is, s =>
    keepsTone i s &&
      match exec i s with
      | .next t => keepsToneAlong is t
      | .fault _ => false
      | .refused _ => false

/-- How many events of the sequence are accepted ticks at the state they meet. -/
def ticksAlong : List Instr → State → Nat
  | [], _ => 0
  | i :: is, s =>
    (if acceptsTick i s then 1 else 0) +
      match exec i s with
      | .next t => ticksAlong is t
      | .fault _ => 0
      | .refused _ => 0

/-- Two states that agree on everything the four core sub-blocks hold and read: all but TOP, CNT and the
parameters of the boundary blocks (R21, R60). -/
def CoreAgrees (s t : State) : Prop :=
  s.phase = t.phase ∧ s.out = t.out ∧ s.gate = t.gate ∧ s.enPrev = t.enPrev ∧
    s.cfg.activeLevel = t.cfg.activeLevel ∧ s.cfg.waveRom = t.cfg.waveRom

/-- The event with its pin level the other way (R47). -/
def flipLevel : Instr → Instr
  | .reset l => .reset (~~~l)
  | .tick => .tick
  | .edge l => .edge (~~~l)
  | .pin l => .pin (~~~l)
  | .setTop v => .setTop v
  | .clk => .clk
  | .select p => .select p

/-- The state of a machine of the other polarity (R7, R47): ACTIVE_LEVEL and the remembered pin level the
other way. -/
def flipPolarity (s : State) : State :=
  { s with enPrev := ~~~s.enPrev, cfg := { s.cfg with activeLevel := ~~~s.cfg.activeLevel } }

end Sys2Proof.Machine
end

