-- ==== Sys2Proof/Certificates/Slice0/Obligations.lean ====
section
/-! DEFINITION. The statements about the model. None is proved here. -/

open Sys2Proof Sys2Proof.Machine

/-! The seven operations: whole next states, so that everything not named is unchanged. -/

/-- `RESET` of 44_system.md, with its event word and its two port-level forms. That OUT is 0x00, EN_PREV the pin
level and CNT 0 are the spec's decisions D4, D7 (log 20) and D12 (log 10), and that a clock cycle with `rst` performs
it alone is its order (D6, log 9). The model's choices, which the rule does not say: TOP takes
the next value of an opaque constant, a draw nothing is known of, counted by `resetDraws` (log 1), and
`resetSeen` notes that a reset has happened (log 7). -/
def Obligations.ResetLoadsEveryElement : Prop :=
  ∀ (l : Level) (s : State),
    exec (.reset l) s = .next { s with
      phase := 0, out := 0x00, gate := .disabled, enPrev := l, cnt := 0,
      top := Config.topAfterReset s.resetDraws, resetSeen := true, resetDraws := s.resetDraws + 1 } ∧
    encode (.reset l) = 0x00000#20 + l.setWidth 20 ∧
    (∀ k, eventsOfCycleA { rst := 1, txEn := l, tick := k } = [.reset l]) ∧
    (∀ p, eventsOfCycleB { rst := 1, txEn := l, selIn := p } = [.reset l])

/-- `TICK` of 40_waveform_driver.md: both arms, the event word and the port-level form of composition A. The disabled
arm is the spec's decision D5 (log 15). That composition A performs it after `PIN` is the spec's order within a clock
cycle (R41; D6, log 9). -/
def Obligations.TickWritesSampleThenAdvances : Prop :=
  ∀ s : State,
    (s.gate = .enabled →
      exec .tick s = .next { s with out := s.cfg.waveRom.get s.phase.toFin, phase := s.phase + 1 }) ∧
    (s.gate = .disabled → exec .tick s = .next s) ∧
    encode .tick = 0x10000#20 ∧
    (∀ l, eventsOfCycleA { rst := 0, txEn := l, tick := 1 } = [.pin l, .tick])

/-- R53: the level alone chooses the arm; both arms as whole next states. -/
def Obligations.EdgeLevelChoosesArm : Prop :=
  ∀ (l : Level) (s : State),
    (l = s.cfg.activeLevel → exec (.edge l) s = .next { s with gate := .enabled }) ∧
    (l ≠ s.cfg.activeLevel →
      exec (.edge l) s = .next { s with gate := .disabled, phase := 0, out := 0x00 }) ∧
    encode (.edge l) = 0x20000#20 + l.setWidth 20

/-- The edge detector, the spec's own (D7, log 20): no change of level does nothing, and either change is an edge
and runs the gate handler at that level. That it comes first in a clock cycle is the spec's order (D6, log 9). -/
def Obligations.PinActsOnEitherEdge : Prop :=
  ∀ (l : Level) (s : State),
    (l = s.enPrev → exec (.pin l) s = .next s) ∧
    (l ≠ s.enPrev → l = s.cfg.activeLevel → exec (.pin l) s = .next { s with enPrev := l, gate := .enabled }) ∧
    (l ≠ s.enPrev → l ≠ s.cfg.activeLevel →
      exec (.pin l) s = .next { s with enPrev := l, gate := .disabled, phase := 0, out := 0x00 }) ∧
    encode (.pin l) = 0x30000#20 + l.setWidth 20 ∧
    (∀ k, (eventsOfCycleA { rst := 0, txEn := l, tick := k }).head? = some (.pin l)) ∧
    (∀ p, (eventsOfCycleB { rst := 0, txEn := l, selIn := p }).head? = some (.pin l))

/-- `SETTOP`: TOP takes the value as it stands and nothing else changes. That the next `CLK` compares with it is
shown by the whole effect of that `CLK`, which is the spec's own reference timer (D12, presumed from general
knowledge, log 10), in both of its enabled arms. -/
def Obligations.SettopTakesEffectAtOnce : Prop :=
  ∀ (v : TopValue) (s : State),
    exec (.setTop v) s = .next { s with top := v } ∧
    encode (.setTop v) = 0x40000#20 + v.setWidth 20 ∧
    (s.gate = .enabled → s.cnt = v →
      runEvents [.setTop v, .clk] s = .next { s with
        top := v, cnt := 0, out := s.cfg.waveRom.get s.phase.toFin, phase := s.phase + 1 }) ∧
    (s.gate = .enabled → s.cnt ≠ v →
      runEvents [.setTop v, .clk] s = .next { s with top := v, cnt := s.cnt + 1 })

/-- The reference timer, the spec's own (D12, log 10): its three arms, its event word and its port-level
form. That it comes last in a clock cycle is the spec's order (D6, log 9). -/
def Obligations.ClkCountsToTopAndTicks : Prop :=
  ∀ s : State,
    (s.gate = .enabled → s.cnt = s.top →
      exec .clk s = .next { s with
        cnt := 0, out := s.cfg.waveRom.get s.phase.toFin, phase := s.phase + 1 }) ∧
    (s.gate = .enabled → s.cnt ≠ s.top → exec .clk s = .next { s with cnt := s.cnt + 1 }) ∧
    (s.gate = .disabled → exec .clk s = .next s) ∧
    encode .clk = 0x50000#20 ∧
    (∀ l p, (eventsOfCycleB { rst := 0, txEn := l, selIn := p }).getLast? = some .clk)

/-- `SELECT` for any mask, which the model takes as a parameter (U3, log 13): only TOP changes, to the period of the
port value by the spec's two truncating divisions (D14). The table is a list of pairs (log 17). -/
def Obligations.SelectLoadsPeriod : Prop :=
  ∀ (p : Byte) (s : State),
    exec (.select p) s = .next { s with
      top := BitVec.ofNat 16 (10 * s.cfg.boundary.timerClockHz / 256 /
        (s.cfg.boundary.selTable.lookup (p &&& s.cfg.selMask)).getD s.cfg.boundary.fallbackDhz) }

/-- R65 as the spec writes it, with the mask 0xBF: the value loaded is the period itself (it fits TOP), with the
event word and the port-level form. The mask is the spec's decision D13, a parameter of the model (log 13); SCALING
is written out by R64, whose truncation is its decision D14; the table is a list of pairs (log 17). -/
def Obligations.SelectWithStandardMask : Prop :=
  ∀ (p : Byte) (s : State), s.cfg.selMask = 0xBF →
    (∃ v : TopValue,
      exec (.select p) s = .next { s with top := v } ∧
      v.toNat = 10 * s.cfg.boundary.timerClockHz / 256 /
        (s.cfg.boundary.selTable.lookup (p &&& 0xBF)).getD s.cfg.boundary.fallbackDhz) ∧
    encode (.select p) = 0x60000#20 + p.setWidth 20 ∧
    (∀ l, Instr.select p ∈ eventsOfCycleB { rst := 0, txEn := l, selIn := p })

/-- R75: every event, and so every sequence of events, answers a next state from every state. -/
def Obligations.EverySequenceCompletes : Prop :=
  (∀ (i : Instr) (s : State), ∃ t, exec i s = .next t) ∧
    ∀ (is : List Instr) (s : State), ∃ t, runEvents is s = .next t

/-! Encodings. -/

/-- Words of the spec's own event-word format (D8; 95_test_vectors E1 to E15), and two stored forms. -/
def Obligations.SpecWordsDecode : Prop :=
  decodeWord 0x00001#20 = .event (.reset 1) ∧
    decodeWord 0x10000#20 = .event .tick ∧
    decodeWord 0x20001#20 = .event (.edge 1) ∧
    decodeWord 0x30000#20 = .event (.pin 0) ∧
    decodeWord 0x401D2#20 = .event (.setTop 466) ∧
    decodeWord 0x50000#20 = .event .clk ∧
    decodeWord 0x6003F#20 = .event (.select 0x3F) ∧
    decodeStored 0x3F 0x00 0x06 = .event (.select 0x3F) ∧
    decodeStored 0xD2 0x01 0x04 = .event (.setTop 466) ∧
    decodeWord 0x10001#20 = .invalid .reservedArg ∧
    decodeWord 0x60100#20 = .invalid .reservedArg ∧
    decodeWord 0x70000#20 = .invalid .reservedOp

/-- Decoding the word and the stored bytes of an event gives it back, for every event and every operand. Word and
byte order are the spec's own (D8, D15). -/
def Obligations.DecodeGivesBackEncoded : Prop :=
  ∀ i : Instr,
    decodeWord (encode i) = .event i ∧
      decodeStored (storedByte0 (encode i)) (storedByte1 (encode i)) (storedByte2 (encode i)) = .event i

/-- Every stored word the decoder accepts is the stored word of the event it reads: one word an event. It rests on
the model's reading that a stored word with a non-zero top nibble is refused (log 8, DEDUCED), and on the spec's
own event-word format (D8). -/
def Obligations.EncodeGivesBackDecoded : Prop :=
  ∀ (b0 b1 b2 : Byte) (i : Instr), decodeStored b0 b1 b2 = .event i →
    storedInput i = .word b0 b1 b2 ∧ wordOfBytes b0 b1 b2 = encode i

/-- The spec's match and mask (D8): a word is an event exactly when it selects a row. -/
def Obligations.WordIsEventIffRowMatches : Prop :=
  ∀ w : EventWord, (∃ i, decodeWord w = .event i) ↔
    (w &&& 0xFFFFE = 0x00000 ∨ w &&& 0xFFFFF = 0x10000 ∨ w &&& 0xFFFFE = 0x20000 ∨
      w &&& 0xFFFFE = 0x30000 ∨ w &&& 0xF0000 = 0x40000 ∨ w &&& 0xFFFFF = 0x50000 ∨ w &&& 0xFFF00 = 0x60000)

/-- Reserved words, the spec's own (D8, D9): a word with `op` 0x7 to 0xF, or with a one in a bit the format requires to
be zero, encodes no event and is refused by the step that meets it. The model's choices: a stored word with a
non-zero top nibble is refused too (log 8, DEDUCED), and the words wait in `inputs` (log 5, DESIGN CHOICE). -/
def Obligations.ReservedWordsAreRefused : Prop :=
  ∀ (s : State) (b0 b1 b2 : Byte) (rest : List Input), s.inputs = .word b0 b1 b2 :: rest →
    (b2.toNat ≥ 7 ∨
      (b2 = 0 ∨ b2 = 2 ∨ b2 = 3) ∧ (b1 ≠ 0 ∨ b0.toNat ≥ 2) ∨
      (b2 = 1 ∨ b2 = 5) ∧ (b1 ≠ 0 ∨ b0 ≠ 0) ∨
      b2 = 6 ∧ b1 ≠ 0) →
    (∃ r, step s = .refused r) ∧ ∀ i, decodeStored b0 b1 b2 ≠ .event i

/-- The spec's stimulus text (D10, log 18): the line that names an event reads back as that event, for every
event. -/
def Obligations.EventTextReadsBack : Prop :=
  ∀ (c : Config) (i : Instr), readLine c (eventText i) = some [i]

/-- The spec's pseudo-operations (D10): the seven expansions. -/
def Obligations.PseudoOperationsExpand : Prop :=
  ∀ (c : Config) (n : Nat),
    expand c .gateOn = [.edge c.activeLevel] ∧
    expand c .gateOff = [.edge (1 - c.activeLevel)] ∧
    expand c .key = [.pin c.activeLevel] ∧
    expand c .unkey = [.pin (1 - c.activeLevel)] ∧
    expand c .boot = [.reset (1 - c.activeLevel)] ∧
    expand c (.ticks n) = List.replicate n .tick ∧
    expand c (.clks n) = List.replicate n .clk

/-! The step, and how it meets the environment. -/

/-- The step runs the event whose stored word the environment presents. The model's choices: the environment's
events wait in `inputs`, and a step takes the oldest and leaves the rest (log 5, DESIGN CHOICE); before the first
`RESET` only a `RESET` runs, which `resetSeen` tells (log 7). -/
def Obligations.StepRunsDecodedEvent : Prop :=
  ∀ (s : State) (b0 b1 b2 : Byte) (rest : List Input) (i : Instr),
    s.inputs = .word b0 b1 b2 :: rest → decodeStored b0 b1 b2 = .event i →
    (s.resetSeen = true ∨ ∃ l, i = .reset l) →
    step s = exec i { s with inputs := rest }

/-- The port-level wrapper, the spec's own (D6, D18, log 9): one rising edge of `clk` is one step and performs the
events of its composition in order. That the cycle waits in `inputs` is the model's choice (log 5), and the premise
on `resetSeen` is log 7. -/
def Obligations.StepRunsClockCycle : Prop :=
  ∀ (s : State) (rest : List Input), s.resetSeen = true →
    (∀ p : PortsA, s.inputs = .cycleA p :: rest →
      (p.rst = 1 → step s = runEvents [.reset p.txEn] { s with inputs := rest }) ∧
      (p.rst = 0 → p.tick = 1 → step s = runEvents [.pin p.txEn, .tick] { s with inputs := rest }) ∧
      (p.rst = 0 → p.tick = 0 → step s = runEvents [.pin p.txEn] { s with inputs := rest })) ∧
    (∀ p : PortsB, s.inputs = .cycleB p :: rest →
      (p.rst = 1 → step s = runEvents [.reset p.txEn] { s with inputs := rest }) ∧
      (p.rst = 0 → step s = runEvents [.pin p.txEn, .select p.selIn, .clk] { s with inputs := rest }))

/-- The beginning of a run (R83, U7, noted in `resetSeen`: log 7; words and cycles wait in `inputs`: log 5). Before
the first `RESET` another event, and a cycle of either composition without `rst`, has no meaning; a stored `RESET`
runs, and a cycle of either composition with `rst` is `RESET` alone (D6, log 9) at the level of `tx_en` (cycle 0 of P8
and P9). -/
def Obligations.RunBeginsWithReset : Prop :=
  ∀ (s : State) (rest : List Input), s.resetSeen = false →
    (∀ b0 b1 b2 i, s.inputs = .word b0 b1 b2 :: rest → decodeStored b0 b1 b2 = .event i → (∀ l, i ≠ .reset l) →
      step s = .refused .eventBeforeReset) ∧
    (∀ p : PortsA, s.inputs = .cycleA p :: rest → p.rst = 0 → step s = .refused .eventBeforeReset) ∧
    (∀ p : PortsB, s.inputs = .cycleB p :: rest → p.rst = 0 → step s = .refused .eventBeforeReset) ∧
    (∀ l, s.inputs = storedInput (.reset l) :: rest →
      ∃ t, step s = .next t ∧ exec (.reset l) { s with inputs := rest } = .next t ∧
        t.resetSeen = true ∧ t.enPrev = l ∧ t.inputs = rest) ∧
    (∀ p : PortsA, s.inputs = .cycleA p :: rest → p.rst = 1 →
      ∃ t, step s = .next t ∧ exec (.reset p.txEn) { s with inputs := rest } = .next t ∧
        t.resetSeen = true ∧ t.enPrev = p.txEn ∧ t.inputs = rest) ∧
    (∀ p : PortsB, s.inputs = .cycleB p :: rest → p.rst = 1 →
      ∃ t, step s = .next t ∧ exec (.reset p.txEn) { s with inputs := rest } = .next t ∧
        t.resetSeen = true ∧ t.enPrev = p.txEn ∧ t.inputs = rest)

/-- The model's choice (log 6): with nothing presented no event happens and nothing changes. -/
def Obligations.NothingPresentedNothingChanges : Prop :=
  ∀ s : State, s.inputs = [] → step s = .next s

/-- Steps over a loaded stimulus are its events one after the other (R6, R34). The model's choices: `State.load`
places the events in `inputs` and a step takes one of them (log 5, DESIGN CHOICE); the premise on `resetSeen` is the
beginning of a run (log 7). -/
def Obligations.LoadedStimulusRunsInOrder : Prop :=
  ∀ (is : List Instr) (s : State), s.inputs = [] → (s.resetSeen = true ∨ startsWithReset is = true) →
    Host.Core.run core is.length (s.load is) = runEvents is s

/-! Reset. -/

/-- R82: what holds after `RESET l` from any state; TOP is not spoken of. The values of OUT, EN_PREV and CNT, which R82
states, are the spec's decisions D4, D7 (log 20) and D12 (log 10). -/
def Obligations.OutputsAfterReset : Prop :=
  ∀ (l : Level) (s : State), ∃ t, exec (.reset l) s = .next t ∧
    t.phase = 0 ∧ t.out = 0x00 ∧ t.gate = .disabled ∧ t.enPrev = l ∧ t.cnt = 0 ∧
    t.dacOut = 0x00 ∧ t.countEn = 0

/-- The output pins show OUT, and GATE coded 1 = enabled, 0 = disabled (D15). -/
def Obligations.PinsShowOutAndGate : Prop :=
  ∀ s : State, s.dacOut = s.out ∧ (s.gate = .enabled → s.countEn = 1) ∧ (s.gate = .disabled → s.countEn = 0)

/-- The machine the model starts from. The level 0 of EN_PREV is the model's choice (log 2), and so are
starting with nothing presented (log 5) and holding the configuration in the state (log 3). OUT 0x00 and CNT 0 are
the spec's decisions D4 and D12 (log 10). The configuration is the spec's defaults: polarity (D3, log 12), ROM (D2,
log 11), mask (D13, log 13), and boundary parameters that are left open (log 4) but for what the spec states of them
(the table as a list: log 17): 38 six-bit codes, and 0x3F gives 670. -/
def Obligations.MachineRightAfterReset : Prop :=
  State.reset.phase = 0 ∧ State.reset.out = 0x00 ∧ State.reset.gate = .disabled ∧ State.reset.enPrev = 0 ∧
    State.reset.cnt = 0 ∧ State.reset.dacOut = 0x00 ∧ State.reset.countEn = 0 ∧
    State.reset.cfg.activeLevel = 1 ∧ State.reset.cfg.waveRom = sineRom ∧ State.reset.cfg.selMask = 0xBF ∧
    State.reset.cfg.boundary.selTable.length = 38 ∧
    (∀ e ∈ State.reset.cfg.boundary.selTable, e.1.toNat < 64) ∧
    State.reset.cfg.boundary.selTable.lookup 0x3F = some 670 ∧
    State.reset.cfg.boundary.documented = true ∧ State.reset.inputs = []

/-- The spec's decision D7 (log 20): keyed at power-up, nothing sounds however often the pin is sampled active and
whatever the timer and the selector do, until the pin has been inactive and active again. That a `TICK` and a `CLK`
meanwhile do nothing are the spec's decisions D5 (log 15) and D12 (log 10). -/
def Obligations.KeyedAtPowerUpStaysSilent : Prop :=
  ∀ (s : State) (is : List Instr),
    (∀ i ∈ is, i = .pin s.cfg.activeLevel ∨ i = .tick ∨ i = .clk ∨ (∃ v, i = .setTop v) ∨ ∃ p, i = .select p) →
    ∃ t, runEvents (.reset s.cfg.activeLevel :: is) s = .next t ∧
      t.gate = .disabled ∧ t.phase = 0 ∧ t.out = 0x00 ∧ t.enPrev = s.cfg.activeLevel ∧
      runEvents [.pin (1 - s.cfg.activeLevel), .pin s.cfg.activeLevel] t = .next { t with gate := .enabled }

/-! Invariants of all runs. -/

/-- R25's invariant holds in the machine right after reset. -/
def Obligations.QuietAtReset : Prop := Quiet State.reset

/-- R25's invariant is kept by every step, from every state that has it. For `TICK` it rests on the spec's decision
D5 (log 15). What a step takes is the oldest of the model's list of inputs (log 5). -/
def Obligations.StepKeepsQuiet : Prop :=
  ∀ s t : State, Quiet s → step s = .next t → Quiet t

/-- R25: in every state reached from `RESET`, applied to any state whatever, by any sequence of events. -/
def Obligations.SilentWheneverDisabled : Prop :=
  ∀ (l : Level) (is : List Instr) (s t : State), runEvents (.reset l :: is) s = .next t →
    t.gate = .disabled → t.phase = 0 ∧ t.out = 0x00

/-- R27 and R36: no step changes the configuration, so a ROM read returns the same value during a whole run. The
model holds the configuration in the state (log 3), and a step takes the oldest of its list of inputs (log 5). -/
def Obligations.RomReadsAreStable : Prop :=
  ∀ s t : State, step s = .next t → t.cfg = s.cfg ∧ ∀ a, t.romRead a = s.romRead a

/-- R77 with R15 and R68: which event may change which element. EN_PREV, and `PIN` as a way to an edge, are the
spec's own detector (D7, log 20); CNT, and `CLK` as a way to a tick, its own reference timer (D12, log 10); that a
tick counts only while enabled is its decision D5 (log 15); that `RESET` may change TOP is its draw (log 1). The last
two clauses speak of the model's own fields: the configuration held in the state (log 3) and the list of inputs
(log 5), which no event writes. -/
def Obligations.StateHasItsOwners : Prop :=
  ∀ (i : Instr) (s t : State), exec i s = .next t →
    (t.out ≠ s.out ∨ t.phase ≠ s.phase →
      i.isReset = true ∨ acceptsTick i s = true ∨ performsEdge i s (1 - s.cfg.activeLevel) = true) ∧
    (t.gate ≠ s.gate → i.isReset = true ∨ ∃ l, performsEdge i s l = true) ∧
    (t.top ≠ s.top → i.isReset = true ∨ (∃ v, i = .setTop v) ∨ ∃ p, i = .select p) ∧
    (t.enPrev ≠ s.enPrev → i.isReset = true ∨ ∃ l, i = .pin l) ∧
    (t.cnt ≠ s.cnt → i.isReset = true ∨ i = .clk) ∧
    t.cfg = s.cfg ∧ t.inputs = s.inputs

/-- R49: each event loads OUT one of three ways. Which `CLK` is an accepted tick is said by the spec's own reference
timer (D12, log 10), and which `PIN` performs an edge by its own detector (D7, log 20). -/
def Obligations.OutputMuxHasThreeWays : Prop :=
  ∀ (i : Instr) (s : State), ∃ t, exec i s = .next t ∧
    (acceptsTick i s = true → t.out = s.cfg.waveRom.get s.phase.toFin) ∧
    (i.isReset = true ∨ performsEdge i s (1 - s.cfg.activeLevel) = true → t.out = 0x00) ∧
    (acceptsTick i s = false → i.isReset = false → performsEdge i s (1 - s.cfg.activeLevel) = false →
      t.out = s.out)

/-! The phase accumulator and the gate. -/

/-- The law the spec derives from `TICK` and `EDGE`: along any events that keep the tone, k accepted ticks advance
PHASE by k and leave the sample before it in OUT. That a matching `CLK` is one of the ticks is the spec's own
reference timer (D12, log 10), and which `PIN` keeps the tone its own detector (D7, log 20). -/
def Obligations.PhaseLawOfAcceptedTicks : Prop :=
  ∀ (is : List Instr) (s : State), s.gate = .enabled → keepsToneAlong is s = true → 1 ≤ ticksAlong is s →
    ∃ t, runEvents is s = .next t ∧ t.gate = .enabled ∧
      t.phase = s.phase + BitVec.ofNat 8 (ticksAlong is s) ∧
      t.out = s.cfg.waveRom.get (s.phase + BitVec.ofNat 8 (ticksAlong is s) - 1).toFin

/-- The document's cyclic property (S2): 256 ticks return PHASE to its value and leave the last sample of the cycle
in OUT. -/
def Obligations.FullCycleOfTicksReturnsPhase : Prop :=
  ∀ s : State, s.gate = .enabled →
    runEvents (List.replicate 256 .tick) s = .next { s with out := s.cfg.waveRom.get (s.phase - 1).toFin }

/-- R54 item 2: whatever happened since `RESET`, a gate-on from the disabled state starts the tone from
index 0. -/
def Obligations.OnsetAlwaysStartsFromIndexZero : Prop :=
  ∀ (l : Level) (is : List Instr) (s t : State), runEvents (.reset l :: is) s = .next t → t.gate = .disabled →
    ∀ k : Nat,
      runEvents (.edge t.cfg.activeLevel :: List.replicate (k + 1) .tick) t = .next { t with
        gate := .enabled, phase := BitVec.ofNat 8 (k + 1), out := t.cfg.waveRom.get (BitVec.ofNat 8 k).toFin }

/-- R55: the same arm twice is the same as once, and, as the spec derives from R53, an inactive glitch restarts the
tone. -/
def Obligations.EdgeIsIdempotent : Prop :=
  ∀ (l : Level) (s : State),
    runEvents [.edge l, .edge l] s = exec (.edge l) s ∧
    (s.gate = .enabled → exec (.edge s.cfg.activeLevel) s = .next s) ∧
    runEvents [.edge (1 - s.cfg.activeLevel), .edge s.cfg.activeLevel] s =
      .next { s with gate := .enabled, phase := 0, out := 0x00 }

/-- R88: with the ROM the spec takes (R22; D2, log 11) the output steps from 0 to 128 at the first tick after a
gate-on and to 0 at a gate-off. The premise `Quiet` is R25's invariant, which `StepKeepsQuiet` states. -/
def Obligations.OnsetAndReleaseSteps : Prop :=
  ∀ s : State, Quiet s → s.gate = .disabled → s.cfg.waveRom = sineRom →
    ∃ on tone off, exec (.edge s.cfg.activeLevel) s = .next on ∧ on.dacOut = 0x00 ∧
      exec .tick on = .next tone ∧ tone.dacOut = 128 ∧
      exec (.edge (1 - s.cfg.activeLevel)) tone = .next off ∧ off.dacOut = 0x00

/-- While the gate is disabled period events and timer clocks leave everything as it is: the spec's decisions D5 for
`TICK` (log 15) and D12 for `CLK` (the reference timer, log 10). -/
def Obligations.DisabledGateHoldsStill : Prop :=
  ∀ (is : List Instr) (s : State), s.gate = .disabled → (∀ i ∈ is, i = .tick ∨ i = .clk) →
    runEvents is s = .next s

/-- The coincidences of gate and tick the spec derives, both orders. That a tick which finds the gate disabled is
ignored is the spec's decision D5 (log 15). -/
def Obligations.CoincidentGateAndTick : Prop :=
  ∀ s : State,
    runEvents [.edge (1 - s.cfg.activeLevel), .tick] s =
      .next { s with gate := .disabled, phase := 0, out := 0x00 } ∧
    runEvents [.tick, .edge (1 - s.cfg.activeLevel)] s =
      .next { s with gate := .disabled, phase := 0, out := 0x00 } ∧
    (s.gate = .enabled →
      runEvents [.edge s.cfg.activeLevel, .tick] s = runEvents [.tick, .edge s.cfg.activeLevel] s) ∧
    (s.gate = .disabled →
      runEvents [.edge s.cfg.activeLevel, .tick] s = .next { s with
        gate := .enabled, out := s.cfg.waveRom.get s.phase.toFin, phase := s.phase + 1 } ∧
      runEvents [.tick, .edge s.cfg.activeLevel] s = .next { s with gate := .enabled })

/-- The spec's order within a cycle (D6, log 9): a gate-off in a clock cycle beats the period event of that cycle, in
both compositions; the selector of composition B still loads TOP. That the change of level is an edge is the spec's
own detector (D7, log 20). That the `TICK` after it is ignored is its decision D5 (log 15). That CNT is held over the
gate-off, and by the `CLK` of composition B, is its own reference timer (D12, presumed from general knowledge, log
10). The list of inputs is the model's choice (log 5), `resetSeen` is log 7. -/
def Obligations.GateOffBeatsTimerInCycle : Prop :=
  ∀ (s : State) (rest : List Input), s.resetSeen = true → s.enPrev = s.cfg.activeLevel →
    (∀ k, s.inputs = .cycleA { rst := 0, txEn := 1 - s.cfg.activeLevel, tick := k } :: rest →
      step s = .next { s with
        inputs := rest, enPrev := 1 - s.cfg.activeLevel, gate := .disabled, phase := 0, out := 0x00 }) ∧
    (∀ p, s.inputs = .cycleB { rst := 0, txEn := 1 - s.cfg.activeLevel, selIn := p } :: rest →
      ∃ v : TopValue, v.toNat = selectedPeriod s.cfg p ∧ step s = .next { s with
        inputs := rest, enPrev := 1 - s.cfg.activeLevel, gate := .disabled, phase := 0, out := 0x00, top := v })

/-- R47 and R7: a machine of the other polarity, given every pin level the other way, does the same at every
event of every run. After `RESET` this is said of everything but TOP, which either machine draws (log 1). The
polarity is a field of the configuration held in the state (log 3, log 12); EN_PREV and CNT are the spec's own (D7,
log 20; D12, log 10). -/
def Obligations.PolarityOnlySwapsLevels : Prop :=
  (∀ (is : List Instr) (s t : State), (∀ i ∈ is, i.isReset = false) → runEvents is s = .next t →
    runEvents (is.map flipLevel) (flipPolarity s) = .next (flipPolarity t)) ∧
  ∀ (l : Level) (s : State), ∃ t u, exec (.reset l) s = .next t ∧
    exec (flipLevel (.reset l)) (flipPolarity s) = .next u ∧
    u.phase = t.phase ∧ u.out = t.out ∧ u.gate = t.gate ∧ u.enPrev = ~~~t.enPrev ∧ u.cnt = t.cnt ∧
    u.cfg = (flipPolarity t).cfg

/-- R21, R54 item 5 and the header of `43_frequency_selector.md`: what the four core sub-blocks do without the
reference timer does not depend on TOP, CNT or the selector's parameters. EN_PREV with `PIN`, and CNT with `CLK`, are
the spec's own (D7, log 20; D12, log 10), and the configuration is held in the state (log 3). -/
def Obligations.CoreIgnoresTimerAndSelector : Prop :=
  ∀ (is : List Instr) (s t s' t' : State), CoreAgrees s t → (∀ i ∈ is, i ≠ .clk) →
    runEvents is s = .next s' → runEvents is t = .next t' → CoreAgrees s' t'

/-! The timer and the selector. -/

/-- The consequences the spec derives from its reference timer (D12, log 10): from any count and any top value, how
many clocks pass before the next period event, and that nothing but the count moves until then. -/
def Obligations.ClocksUntilPeriodEvent : Prop :=
  ∀ (s : State) (d : Nat), s.gate = .enabled →
    (s.cnt.toNat ≤ s.top.toNat → d = s.top.toNat - s.cnt.toNat + 1) →
    (s.top.toNat < s.cnt.toNat → d = 65536 - s.cnt.toNat + s.top.toNat + 1) →
    (∀ n < d, runEvents (List.replicate n .clk) s = .next { s with cnt := s.cnt + BitVec.ofNat 16 n }) ∧
    runEvents (List.replicate d .clk) s = .next { s with
      cnt := 0, out := s.cfg.waveRom.get s.phase.toFin, phase := s.phase + 1 }

/-- R59: with counting enabled and TOP unchanged, the clock that follows TOP clocks after a period event is the
next one, and none of those between is. It is said of `CLK`, the spec's own reference timer (D12, log 10). -/
def Obligations.PeriodEventsAreTopPlusOneApart : Prop :=
  ∀ s : State, s.gate = .enabled → s.cnt = s.top →
    ∃ t, exec .clk s = .next t ∧ acceptsTick .clk s = true ∧
      (∀ n < s.top.toNat, ∃ u, runEvents (List.replicate n .clk) t = .next u ∧ acceptsTick .clk u = false) ∧
      ∃ u, runEvents (List.replicate s.top.toNat .clk) t = .next u ∧ acceptsTick .clk u = true

/-- 256 (TOP + 1) clocks are one whole sine cycle, and the frequency the spec gives is the timer clock over that
many. The run of `CLK` events and the return of CNT to its value rest on the spec's own reference timer (D12,
presumed from general knowledge, log 10). -/
def Obligations.SineCycleTakesItsClocks : Prop :=
  ∀ s : State,
    (s.gate = .enabled → s.cnt.toNat ≤ s.top.toNat →
      runEvents (List.replicate (256 * (s.top.toNat + 1)) .clk) s =
        .next { s with out := s.cfg.waveRom.get (s.phase - 1).toFin } ∧
      ticksAlong (List.replicate (256 * (s.top.toNat + 1)) .clk) s = 256) ∧
    s.outputHz * (256 * (s.top.toNat + 1) : ℚ) = s.cfg.boundary.timerClockHz

/-- The spec's order within a cycle (D6, log 9), composition B: the selector's new top value is in force for the `CLK` of
the same cycle. How that `CLK` moves CNT, cleared with a sample at the match and one more otherwise, is the spec's
own reference timer (D12, presumed from general knowledge, log 10). That a `PIN` at the level of EN_PREV does nothing
is its own detector (D7, log 20). The list of inputs is the model's choice (log 5), `resetSeen` is log 7. -/
def Obligations.SelectorInForceSameCycle : Prop :=
  ∀ (s : State) (p : Byte) (rest : List Input), s.resetSeen = true → s.gate = .enabled →
    s.inputs = .cycleB { rst := 0, txEn := s.enPrev, selIn := p } :: rest →
    (s.cnt.toNat = selectedPeriod s.cfg p →
      step s = .next { s with
        inputs := rest, top := s.cnt, cnt := 0, out := s.cfg.waveRom.get s.phase.toFin, phase := s.phase + 1 }) ∧
    (s.cnt.toNat ≠ selectedPeriod s.cfg p →
      ∃ v, v.toNat = selectedPeriod s.cfg p ∧
        step s = .next { s with inputs := rest, top := v, cnt := s.cnt + 1 })

/-- The mask 0xBF, the spec's reading of the port (D13, C1), which the model takes as a parameter (log 13): bit 6 of
the port value is ignored and bit 7 is kept. -/
def Obligations.SelectorIgnoresBitSix : Prop :=
  ∀ (p : Byte) (s : State), s.cfg.selMask = 0xBF →
    maskedCode s.cfg p = p &&& 0xBF ∧
    (maskedCode s.cfg p).getLsbD 6 = false ∧
    (∀ k, k ≠ 6 → (maskedCode s.cfg p).getLsbD k = p.getLsbD k) ∧
    exec (.select (p ^^^ 0x40)) s = exec (.select p) s

/-- Lookup under the mask 0xBF (D13, log 13) and the two truncating divisions (D14): with a table of six-bit codes that
gives 670 for 0x3F (the table as a list: log 17), a port value with bit 7 set takes the fallback, and 0x3F and 0x7F
take 670 tenths of a hertz. -/
def Obligations.KnownCodeAndFallback : Prop :=
  ∀ s : State, s.cfg.selMask = 0xBF → s.cfg.boundary.documented = true →
    (∀ p : Byte, p.getLsbD 7 = true →
      exec (.select p) s = .next { s with
        top := BitVec.ofNat 16 (scaling s.cfg.boundary.timerClockHz / s.cfg.boundary.fallbackDhz) }) ∧
    (∀ p : Byte, p = 0x3F ∨ p = 0x7F →
      exec (.select p) s = .next { s with
        top := BitVec.ofNat 16 (scaling s.cfg.boundary.timerClockHz / 670) })

/-- R64: the two truncating divisions (D14); the divisor is never zero and the value loaded is the period itself,
positive, in every configuration a run can have (log 3). The code is masked by the parameter SEL_MASK (log 13) and the
table is a list of pairs (log 17). -/
def Obligations.PeriodIsPositiveAndFits : Prop :=
  ∀ (p : Byte) (s : State), ∃ t, exec (.select p) s = .next t ∧
    t.top.toNat = 10 * s.cfg.boundary.timerClockHz / 256 /
      (s.cfg.boundary.selTable.lookup (p &&& s.cfg.selMask)).getD s.cfg.boundary.fallbackDhz ∧
    1 ≤ t.top.toNat ∧
    0 < (s.cfg.boundary.selTable.lookup (p &&& s.cfg.selMask)).getD s.cfg.boundary.fallbackDhz

/-- A higher target frequency yields a smaller or equal period, as the spec derives from its formula (D14). -/
def Obligations.PeriodFallsWithFrequency : Prop :=
  ∀ timerClockHz f₁ f₂ : Nat, 0 < f₁ → f₁ ≤ f₂ → periodOf timerClockHz f₂ ≤ periodOf timerClockHz f₁

/-- R9 and R80 (D9): a configuration is taken exactly when it meets R9's condition (and its table is a function, log
17), and refused by name otherwise. `configure`, the boundary that takes it into the state, is the model's form
(log 3). -/
def Obligations.IllFormedConfigurationRefused : Prop :=
  ∀ (a : Level) (rom : Vector Byte 256) (m : Byte) (b : BoundaryData) (s : State),
    (b.wf = true ↔
      (∀ f, f = b.fallbackDhz ∨ f ∈ b.selTable.map Prod.snd →
        1 ≤ 10 * b.timerClockHz / 256 / f ∧ 10 * b.timerClockHz / 256 / f ≤ 65535) ∧
      (b.selTable.map Prod.fst).Nodup) ∧
    (b.wf = true → ∃ t, configure a rom m b s = .next t ∧
      t.cfg.activeLevel = a ∧ t.cfg.waveRom = rom ∧ t.cfg.selMask = m ∧ t.cfg.boundary.toBoundaryData = b) ∧
    (b.wf = false → configure a rom m b s = .refused .illFormedConfiguration)

/-- The reference timer, the spec's own (D12, log 10), meets the timer's contract: it raises a period event only while
counting is enabled, that event is a `TICK` with CNT cleared, and a stopped timer changes nothing. -/
def Obligations.ReferenceTimerMeetsContract : Prop :=
  ∀ s : State,
    (acceptsTick .clk s = true → timerContract .tick s = true ∧ exec .clk s = exec .tick { s with cnt := 0 }) ∧
    (s.gate = .disabled → exec .clk s = .next s)

/-! The sine ROM. -/

/-- The ROM the spec takes (D2, log 11): the document's formula, rounded to nearest, at every index. -/
def Obligations.RomIsTheRoundedSine : Prop :=
  ∀ i : Fin 256, ((sineRom.get i).toNat : ℤ) = ⌊(128 : ℝ) + 127 * Real.sin (2 * Real.pi * (i : ℕ) / 256) + 1 / 2⌋

/-- Facts the spec derives of the table it takes (D2, log 11): the bounds, the sum and the two symmetries. -/
def Obligations.RomFactsOfTheTable : Prop :=
  (∀ a : Byte, 1 ≤ (sineRom.get a.toFin).toNat ∧ (sineRom.get a.toFin).toNat ≤ 255) ∧
    (sineRom.toList.map BitVec.toNat).sum = 32768 ∧
    (∀ a : Byte, (sineRom.get a.toFin).toNat + (sineRom.get (0 - a).toFin).toNat = 256) ∧
    (∀ a : Byte, sineRom.get a.toFin = sineRom.get (128 - a).toFin) ∧
    sineRom.get 0 = 128 ∧ sineRom.get 128 = 128 ∧ sineRom.get 64 = 255 ∧ sineRom.get 192 = 1 ∧ sineRom.get 255 = 125
end

