-- ==== Sys2Proof/Laws/Decode.lean ====
section
/-! SUPPORT. The bits of event words, stored bytes and fields, each definition unfolded once. -/

namespace Sys2Proof

@[simp] theorem getLsbD_eventWord (op : BitVec 4) (arg : BitVec 16) (k : Nat) :
    (eventWord op arg).getLsbD k = if k < 16 then arg.getLsbD k else op.getLsbD (k - 16) := by
  unfold eventWord
  rw [BitVec.getLsbD_append]

@[simp] theorem getLsbD_wordOfBytes (b0 b1 b2 : Byte) (k : Nat) :
    (wordOfBytes b0 b1 b2).getLsbD k =
      if k < 8 then b0.getLsbD k
      else if k < 16 then b1.getLsbD (k - 8)
      else (decide (k - 16 < 4) && b2.getLsbD (k - 16)) := by
  unfold wordOfBytes
  rw [BitVec.getLsbD_append, BitVec.getLsbD_append, BitVec.getLsbD_extractLsb']
  by_cases h8 : k < 8
  · simp [h8, show k < 8 + 8 by omega, -BitVec.getLsbD_eq_getElem]
  · by_cases h16 : k < 16 <;> simp [h8, h16]

@[simp] theorem getLsbD_opField (w : EventWord) (k : Nat) :
    (opField w).getLsbD k = (decide (k < 4) && w.getLsbD (16 + k)) := by
  simp [opField, BitVec.getLsbD_extractLsb', -BitVec.getLsbD_eq_getElem]

@[simp] theorem getLsbD_argField (w : EventWord) (k : Nat) :
    (argField w).getLsbD k = (decide (k < 16) && w.getLsbD k) := by
  simp [argField, BitVec.getLsbD_extractLsb', -BitVec.getLsbD_eq_getElem]

@[simp] theorem getLsbD_storedByte0 (w : EventWord) (k : Nat) :
    (storedByte0 w).getLsbD k = (decide (k < 8) && w.getLsbD k) := by
  simp [storedByte0, BitVec.getLsbD_extractLsb', -BitVec.getLsbD_eq_getElem]

@[simp] theorem getLsbD_storedByte1 (w : EventWord) (k : Nat) :
    (storedByte1 w).getLsbD k = (decide (k < 8) && w.getLsbD (8 + k)) := by
  simp [storedByte1, BitVec.getLsbD_extractLsb', -BitVec.getLsbD_eq_getElem]

@[simp] theorem getLsbD_storedByte2 (w : EventWord) (k : Nat) :
    (storedByte2 w).getLsbD k = (decide (k < 4) && w.getLsbD (16 + k)) := by
  simp only [storedByte2, BitVec.getLsbD_setWidth, BitVec.getLsbD_extractLsb']
  by_cases h : k < 4
  · simp [h, show k < 8 by omega, -BitVec.getLsbD_eq_getElem]
  · simp [h, -BitVec.getLsbD_eq_getElem]

/-- The fields of a word put together from them (R37). -/
@[simp] theorem opField_eventWord (op : BitVec 4) (arg : BitVec 16) : opField (eventWord op arg) = op := by
  apply BitVec.eq_of_getLsbD_eq
  intro k hk
  simp [hk, -BitVec.getLsbD_eq_getElem]

@[simp] theorem argField_eventWord (op : BitVec 4) (arg : BitVec 16) : argField (eventWord op arg) = arg := by
  apply BitVec.eq_of_getLsbD_eq
  intro k hk
  simp [hk, -BitVec.getLsbD_eq_getElem]

/-- A word is its fields put together (R37). -/
theorem eventWord_fields (w : EventWord) : eventWord (opField w) (argField w) = w := by
  apply BitVec.eq_of_getLsbD_eq
  intro k hk
  by_cases h : k < 16
  · simp [h, -BitVec.getLsbD_eq_getElem]
  · simp [h, show k - 16 < 4 by omega, show 16 + (k - 16) = k by omega, -BitVec.getLsbD_eq_getElem]

/-- Storing a word and reading it back (R30). -/
@[simp] theorem wordOfBytes_stored (w : EventWord) :
    wordOfBytes (storedByte0 w) (storedByte1 w) (storedByte2 w) = w := by
  apply BitVec.eq_of_getLsbD_eq
  intro k hk
  by_cases h8 : k < 8
  · simp [h8, -BitVec.getLsbD_eq_getElem]
  · by_cases h16 : k < 16
    · simp [h8, h16, show k - 8 < 8 by omega, show 8 + (k - 8) = k by omega, -BitVec.getLsbD_eq_getElem]
    · simp [h8, h16, show k - 16 < 4 by omega, show 16 + (k - 16) = k by omega, -BitVec.getLsbD_eq_getElem]

/-- The top four bits of the third stored byte are zero (R30). -/
@[simp] theorem storedByte2_padding (w : EventWord) : (storedByte2 w).extractLsb' 4 4 = 0 := by
  apply BitVec.eq_of_getLsbD_eq
  intro k hk
  simp [BitVec.getLsbD_extractLsb', -BitVec.getLsbD_eq_getElem]

/-- A stored word decodes as the word (R30). -/
theorem decodeStored_stored (w : EventWord) :
    decodeStored (storedByte0 w) (storedByte1 w) (storedByte2 w) = decodeWord w := by
  simp [decodeStored, -BitVec.getLsbD_eq_getElem]

/-- An argument whose upper bits are zero is its level (R38). -/
theorem setWidth_level {a : BitVec 16} (h : a.extractLsb' 1 15 = 0) : (a.extractLsb' 0 1).setWidth 16 = a := by
  apply BitVec.eq_of_getLsbD_eq
  intro k hk
  have hz : ∀ j, (a.extractLsb' 1 15).getLsbD j = false := by simp [h]
  simp only [BitVec.getLsbD_extractLsb'] at hz
  rcases k with _ | k
  · simp
  · have hk' := hz k
    rw [Nat.add_comm] at hk'
    have hk15 : k < 15 := by omega
    simp_all [-BitVec.getLsbD_eq_getElem]

/-- An argument whose upper byte is zero is its lower byte (R38). -/
theorem setWidth_byte {a : BitVec 16} (h : a.extractLsb' 8 8 = 0) : (a.extractLsb' 0 8).setWidth 16 = a := by
  apply BitVec.eq_of_getLsbD_eq
  intro k hk
  have hz : ∀ j, (a.extractLsb' 8 8).getLsbD j = false := by simp [h]
  simp only [BitVec.getLsbD_extractLsb'] at hz
  by_cases h8 : k < 8
  · simp [h8, hk, -BitVec.getLsbD_eq_getElem]
  · have hk' := hz (k - 8)
    rw [show 8 + (k - 8) = k by omega] at hk'
    have hk8 : k - 8 < 8 := by omega
    simp_all [-BitVec.getLsbD_eq_getElem]

end Sys2Proof
end

