-- ==== Sys2Proof/Laws/State.lean ====
section
/-! SUPPORT. One lemma per field per update of State, each true by rfl. -/

namespace Sys2Proof.Machine

variable (s : State)

@[simp] theorem State.startCounting_phase : (s.startCounting).phase = s.phase := rfl
@[simp] theorem State.startCounting_out : (s.startCounting).out = s.out := rfl
@[simp] theorem State.startCounting_gate : (s.startCounting).gate = .enabled := rfl
@[simp] theorem State.startCounting_enPrev : (s.startCounting).enPrev = s.enPrev := rfl
@[simp] theorem State.startCounting_top : (s.startCounting).top = s.top := rfl
@[simp] theorem State.startCounting_cnt : (s.startCounting).cnt = s.cnt := rfl
@[simp] theorem State.startCounting_cfg : (s.startCounting).cfg = s.cfg := rfl
@[simp] theorem State.startCounting_resetSeen : (s.startCounting).resetSeen = s.resetSeen := rfl
@[simp] theorem State.startCounting_resetDraws : (s.startCounting).resetDraws = s.resetDraws := rfl
@[simp] theorem State.startCounting_inputs : (s.startCounting).inputs = s.inputs := rfl

@[simp] theorem State.stopCounting_phase : (s.stopCounting).phase = s.phase := rfl
@[simp] theorem State.stopCounting_out : (s.stopCounting).out = s.out := rfl
@[simp] theorem State.stopCounting_gate : (s.stopCounting).gate = .disabled := rfl
@[simp] theorem State.stopCounting_enPrev : (s.stopCounting).enPrev = s.enPrev := rfl
@[simp] theorem State.stopCounting_top : (s.stopCounting).top = s.top := rfl
@[simp] theorem State.stopCounting_cnt : (s.stopCounting).cnt = s.cnt := rfl
@[simp] theorem State.stopCounting_cfg : (s.stopCounting).cfg = s.cfg := rfl
@[simp] theorem State.stopCounting_resetSeen : (s.stopCounting).resetSeen = s.resetSeen := rfl
@[simp] theorem State.stopCounting_resetDraws : (s.stopCounting).resetDraws = s.resetDraws := rfl
@[simp] theorem State.stopCounting_inputs : (s.stopCounting).inputs = s.inputs := rfl

@[simp] theorem State.outWrite_phase (v : Byte) : (s.outWrite v).phase = s.phase := rfl
@[simp] theorem State.outWrite_out (v : Byte) : (s.outWrite v).out = v := rfl
@[simp] theorem State.outWrite_gate (v : Byte) : (s.outWrite v).gate = s.gate := rfl
@[simp] theorem State.outWrite_enPrev (v : Byte) : (s.outWrite v).enPrev = s.enPrev := rfl
@[simp] theorem State.outWrite_top (v : Byte) : (s.outWrite v).top = s.top := rfl
@[simp] theorem State.outWrite_cnt (v : Byte) : (s.outWrite v).cnt = s.cnt := rfl
@[simp] theorem State.outWrite_cfg (v : Byte) : (s.outWrite v).cfg = s.cfg := rfl
@[simp] theorem State.outWrite_resetSeen (v : Byte) : (s.outWrite v).resetSeen = s.resetSeen := rfl
@[simp] theorem State.outWrite_resetDraws (v : Byte) : (s.outWrite v).resetDraws = s.resetDraws := rfl
@[simp] theorem State.outWrite_inputs (v : Byte) : (s.outWrite v).inputs = s.inputs := rfl

@[simp] theorem State.writePhase_phase (v : Byte) : (s.writePhase v).phase = v := rfl
@[simp] theorem State.writePhase_out (v : Byte) : (s.writePhase v).out = s.out := rfl
@[simp] theorem State.writePhase_gate (v : Byte) : (s.writePhase v).gate = s.gate := rfl
@[simp] theorem State.writePhase_enPrev (v : Byte) : (s.writePhase v).enPrev = s.enPrev := rfl
@[simp] theorem State.writePhase_top (v : Byte) : (s.writePhase v).top = s.top := rfl
@[simp] theorem State.writePhase_cnt (v : Byte) : (s.writePhase v).cnt = s.cnt := rfl
@[simp] theorem State.writePhase_cfg (v : Byte) : (s.writePhase v).cfg = s.cfg := rfl
@[simp] theorem State.writePhase_resetSeen (v : Byte) : (s.writePhase v).resetSeen = s.resetSeen := rfl
@[simp] theorem State.writePhase_resetDraws (v : Byte) : (s.writePhase v).resetDraws = s.resetDraws := rfl
@[simp] theorem State.writePhase_inputs (v : Byte) : (s.writePhase v).inputs = s.inputs := rfl

@[simp] theorem State.writeEnPrev_phase (v : Level) : (s.writeEnPrev v).phase = s.phase := rfl
@[simp] theorem State.writeEnPrev_out (v : Level) : (s.writeEnPrev v).out = s.out := rfl
@[simp] theorem State.writeEnPrev_gate (v : Level) : (s.writeEnPrev v).gate = s.gate := rfl
@[simp] theorem State.writeEnPrev_enPrev (v : Level) : (s.writeEnPrev v).enPrev = v := rfl
@[simp] theorem State.writeEnPrev_top (v : Level) : (s.writeEnPrev v).top = s.top := rfl
@[simp] theorem State.writeEnPrev_cnt (v : Level) : (s.writeEnPrev v).cnt = s.cnt := rfl
@[simp] theorem State.writeEnPrev_cfg (v : Level) : (s.writeEnPrev v).cfg = s.cfg := rfl
@[simp] theorem State.writeEnPrev_resetSeen (v : Level) : (s.writeEnPrev v).resetSeen = s.resetSeen := rfl
@[simp] theorem State.writeEnPrev_resetDraws (v : Level) : (s.writeEnPrev v).resetDraws = s.resetDraws := rfl
@[simp] theorem State.writeEnPrev_inputs (v : Level) : (s.writeEnPrev v).inputs = s.inputs := rfl

@[simp] theorem State.writeTop_phase (v : TopValue) : (s.writeTop v).phase = s.phase := rfl
@[simp] theorem State.writeTop_out (v : TopValue) : (s.writeTop v).out = s.out := rfl
@[simp] theorem State.writeTop_gate (v : TopValue) : (s.writeTop v).gate = s.gate := rfl
@[simp] theorem State.writeTop_enPrev (v : TopValue) : (s.writeTop v).enPrev = s.enPrev := rfl
@[simp] theorem State.writeTop_top (v : TopValue) : (s.writeTop v).top = v := rfl
@[simp] theorem State.writeTop_cnt (v : TopValue) : (s.writeTop v).cnt = s.cnt := rfl
@[simp] theorem State.writeTop_cfg (v : TopValue) : (s.writeTop v).cfg = s.cfg := rfl
@[simp] theorem State.writeTop_resetSeen (v : TopValue) : (s.writeTop v).resetSeen = s.resetSeen := rfl
@[simp] theorem State.writeTop_resetDraws (v : TopValue) : (s.writeTop v).resetDraws = s.resetDraws := rfl
@[simp] theorem State.writeTop_inputs (v : TopValue) : (s.writeTop v).inputs = s.inputs := rfl

@[simp] theorem State.writeCnt_phase (v : TopValue) : (s.writeCnt v).phase = s.phase := rfl
@[simp] theorem State.writeCnt_out (v : TopValue) : (s.writeCnt v).out = s.out := rfl
@[simp] theorem State.writeCnt_gate (v : TopValue) : (s.writeCnt v).gate = s.gate := rfl
@[simp] theorem State.writeCnt_enPrev (v : TopValue) : (s.writeCnt v).enPrev = s.enPrev := rfl
@[simp] theorem State.writeCnt_top (v : TopValue) : (s.writeCnt v).top = s.top := rfl
@[simp] theorem State.writeCnt_cnt (v : TopValue) : (s.writeCnt v).cnt = v := rfl
@[simp] theorem State.writeCnt_cfg (v : TopValue) : (s.writeCnt v).cfg = s.cfg := rfl
@[simp] theorem State.writeCnt_resetSeen (v : TopValue) : (s.writeCnt v).resetSeen = s.resetSeen := rfl
@[simp] theorem State.writeCnt_resetDraws (v : TopValue) : (s.writeCnt v).resetDraws = s.resetDraws := rfl
@[simp] theorem State.writeCnt_inputs (v : TopValue) : (s.writeCnt v).inputs = s.inputs := rfl

@[simp] theorem State.drawTop_phase : (s.drawTop).phase = s.phase := rfl
@[simp] theorem State.drawTop_out : (s.drawTop).out = s.out := rfl
@[simp] theorem State.drawTop_gate : (s.drawTop).gate = s.gate := rfl
@[simp] theorem State.drawTop_enPrev : (s.drawTop).enPrev = s.enPrev := rfl
@[simp] theorem State.drawTop_top : (s.drawTop).top = Config.topAfterReset s.resetDraws := rfl
@[simp] theorem State.drawTop_cnt : (s.drawTop).cnt = s.cnt := rfl
@[simp] theorem State.drawTop_cfg : (s.drawTop).cfg = s.cfg := rfl
@[simp] theorem State.drawTop_resetSeen : (s.drawTop).resetSeen = s.resetSeen := rfl
@[simp] theorem State.drawTop_resetDraws : (s.drawTop).resetDraws = s.resetDraws + 1 := rfl
@[simp] theorem State.drawTop_inputs : (s.drawTop).inputs = s.inputs := rfl

@[simp] theorem State.markReset_phase : (s.markReset).phase = s.phase := rfl
@[simp] theorem State.markReset_out : (s.markReset).out = s.out := rfl
@[simp] theorem State.markReset_gate : (s.markReset).gate = s.gate := rfl
@[simp] theorem State.markReset_enPrev : (s.markReset).enPrev = s.enPrev := rfl
@[simp] theorem State.markReset_top : (s.markReset).top = s.top := rfl
@[simp] theorem State.markReset_cnt : (s.markReset).cnt = s.cnt := rfl
@[simp] theorem State.markReset_cfg : (s.markReset).cfg = s.cfg := rfl
@[simp] theorem State.markReset_resetSeen : (s.markReset).resetSeen = true := rfl
@[simp] theorem State.markReset_resetDraws : (s.markReset).resetDraws = s.resetDraws := rfl
@[simp] theorem State.markReset_inputs : (s.markReset).inputs = s.inputs := rfl

@[simp] theorem State.writeInputs_phase (v : List Input) : (s.writeInputs v).phase = s.phase := rfl
@[simp] theorem State.writeInputs_out (v : List Input) : (s.writeInputs v).out = s.out := rfl
@[simp] theorem State.writeInputs_gate (v : List Input) : (s.writeInputs v).gate = s.gate := rfl
@[simp] theorem State.writeInputs_enPrev (v : List Input) : (s.writeInputs v).enPrev = s.enPrev := rfl
@[simp] theorem State.writeInputs_top (v : List Input) : (s.writeInputs v).top = s.top := rfl
@[simp] theorem State.writeInputs_cnt (v : List Input) : (s.writeInputs v).cnt = s.cnt := rfl
@[simp] theorem State.writeInputs_cfg (v : List Input) : (s.writeInputs v).cfg = s.cfg := rfl
@[simp] theorem State.writeInputs_resetSeen (v : List Input) : (s.writeInputs v).resetSeen = s.resetSeen := rfl
@[simp] theorem State.writeInputs_resetDraws (v : List Input) : (s.writeInputs v).resetDraws = s.resetDraws := rfl
@[simp] theorem State.writeInputs_inputs (v : List Input) : (s.writeInputs v).inputs = v := rfl

end Sys2Proof.Machine
end

