-- ==== Sys2Proof/Laws/Ops.lean ====
section
/-! SUPPORT. What each shared operation can do, said once; provers cite these lemmas instead of unfolding. -/

namespace Sys2Proof.Machine

variable {s : State}

/-! The configuration. -/

theorem periodFits_iff {hz f : Nat} :
    periodFits hz f = true ↔ 1 ≤ periodOf hz f ∧ periodOf hz f ≤ 65535 := by
  simp [periodFits]

/-- A frequency of the table or the fallback of a well-formed configuration has a period that fits TOP. -/
theorem Boundary.fits (b : Boundary) {f : Nat} (h : f = b.fallbackDhz ∨ f ∈ b.selTable.map Prod.snd) :
    1 ≤ periodOf b.timerClockHz f ∧ periodOf b.timerClockHz f ≤ 65535 := by
  have ok := b.ok
  simp only [BoundaryData.wf, Bool.and_eq_true, List.all_eq_true] at ok
  obtain rfl | h := h
  · exact periodFits_iff.mp ok.1
  · obtain ⟨e, he, rfl⟩ := List.mem_map.mp h
    exact periodFits_iff.mp (ok.2.1 e he)

/-- What a lookup finds is an entry of the list. -/
theorem lookup_mem {code : Byte} {f : Nat} :
    ∀ {l : List (Byte × Nat)}, l.lookup code = some f → (code, f) ∈ l
  | [], h => by simp at h
  | (c, g) :: l, h => by
    rw [List.lookup_cons] at h
    split at h
    · rename_i hc
      simp_all
    · exact List.mem_cons_of_mem _ (lookup_mem h)

/-- The selector's frequency is an entry of the table or the fallback (R63). -/
theorem targetDhz_known (c : Config) (code : Byte) :
    targetDhz c code = c.boundary.fallbackDhz ∨ targetDhz c code ∈ c.boundary.selTable.map Prod.snd := by
  unfold targetDhz
  cases h : c.boundary.selTable.lookup code with
  | none => exact .inl rfl
  | some f => exact .inr (List.mem_map.mpr ⟨_, lookup_mem h, rfl⟩)

/-- The period of a port value is positive and fits sixteen bits (R64). -/
theorem selectedPeriod_fits (c : Config) (p : Byte) : 1 ≤ selectedPeriod c p ∧ selectedPeriod c p ≤ 65535 :=
  Boundary.fits c.boundary (targetDhz_known c _)

/-! Levels. -/

theorem inactiveOf_ne (c : Config) : inactiveOf c ≠ c.activeLevel := by
  unfold inactiveOf
  generalize c.activeLevel = a
  revert a
  decide

/-- A level is the active one or the inactive one. -/
theorem level_eq_inactiveOf {c : Config} {l : Level} (h : l ≠ c.activeLevel) : l = inactiveOf c := by
  unfold inactiveOf
  generalize c.activeLevel = a at *
  revert l a
  decide

/-! The events performed inside events. -/

theorem State.doTick_of_enabled (h : s.gate = .enabled) :
    s.doTick = (s.outWrite (s.romRead s.phase)).writePhase (s.phase + 1) := by
  simp [State.doTick, h]

theorem State.doTick_of_disabled (h : s.gate = .disabled) : s.doTick = s := by
  simp [State.doTick, h]

theorem State.doEdge_of_active {l : Level} (h : l = s.cfg.activeLevel) : s.doEdge l = s.startCounting :=
  if_pos h

theorem State.doEdge_of_inactive {l : Level} (h : l ≠ s.cfg.activeLevel) : s.doEdge l = s.gateOff :=
  if_neg h

theorem State.doPin_of_same {l : Level} (h : l = s.enPrev) : s.doPin l = s := if_pos h

theorem State.doPin_of_change {l : Level} (h : l ≠ s.enPrev) : s.doPin l = (s.writeEnPrev l).doEdge l := if_neg h

theorem State.doClk_of_disabled (h : s.gate = .disabled) : s.doClk = s := by
  simp [State.doClk, h]

theorem State.doClk_of_match (h : s.gate = .enabled) (hc : s.cnt = s.top) :
    s.doClk = ((s.writeCnt 0).outWrite (s.romRead s.phase)).writePhase (s.phase + 1) := by
  have h0 : (s.writeCnt 0).gate = .enabled := h
  unfold State.doClk
  rw [h]
  dsimp only
  rw [if_pos hc, State.doTick_of_enabled h0]
  rfl

theorem State.doClk_of_count (h : s.gate = .enabled) (hc : s.cnt ≠ s.top) :
    s.doClk = s.writeCnt (s.cnt + 1) := by
  simp [State.doClk, h, hc]

/-- Everything a tick can do. -/
theorem State.doTick_cases (s : State) :
    (s.gate = .enabled ∧ s.doTick = (s.outWrite (s.romRead s.phase)).writePhase (s.phase + 1)) ∨
      (s.gate = .disabled ∧ s.doTick = s) := by
  cases h : s.gate with
  | enabled => exact .inl ⟨rfl, State.doTick_of_enabled h⟩
  | disabled => exact .inr ⟨rfl, State.doTick_of_disabled h⟩

/-- Everything the gate handler can do. -/
theorem State.doEdge_cases (s : State) (l : Level) :
    (l = s.cfg.activeLevel ∧ s.doEdge l = s.startCounting) ∨
      (l = inactiveOf s.cfg ∧ s.doEdge l = s.gateOff) := by
  by_cases h : l = s.cfg.activeLevel
  · exact .inl ⟨h, State.doEdge_of_active h⟩
  · exact .inr ⟨level_eq_inactiveOf h, State.doEdge_of_inactive h⟩

/-- Everything a sample of the pin can do. -/
theorem State.doPin_cases (s : State) (l : Level) :
    (l = s.enPrev ∧ s.doPin l = s) ∨
      (l ≠ s.enPrev ∧ l = s.cfg.activeLevel ∧ s.doPin l = (s.writeEnPrev l).startCounting) ∨
      (l ≠ s.enPrev ∧ l = inactiveOf s.cfg ∧ s.doPin l = (s.writeEnPrev l).gateOff) := by
  by_cases h : l = s.enPrev
  · exact .inl ⟨h, State.doPin_of_same h⟩
  · obtain ⟨hl, he⟩ | ⟨hl, he⟩ := State.doEdge_cases (s.writeEnPrev l) l
    · exact .inr (.inl ⟨h, hl, (State.doPin_of_change h).trans he⟩)
    · exact .inr (.inr ⟨h, hl, (State.doPin_of_change h).trans he⟩)

/-- Everything a timer clock can do. -/
theorem State.doClk_cases (s : State) :
    (s.gate = .disabled ∧ s.doClk = s) ∨
      (s.gate = .enabled ∧ s.cnt = s.top ∧
        s.doClk = ((s.writeCnt 0).outWrite (s.romRead s.phase)).writePhase (s.phase + 1)) ∨
      (s.gate = .enabled ∧ s.cnt ≠ s.top ∧ s.doClk = s.writeCnt (s.cnt + 1)) := by
  cases h : s.gate with
  | disabled => exact .inl ⟨rfl, State.doClk_of_disabled h⟩
  | enabled =>
    by_cases hc : s.cnt = s.top
    · exact .inr (.inl ⟨rfl, hc, State.doClk_of_match h hc⟩)
    · exact .inr (.inr ⟨rfl, hc, State.doClk_of_count h hc⟩)

theorem State.doReset_eq (s : State) (l : Level) :
    s.doReset l = { s with
      phase := 0, out := 0x00, gate := .disabled, enPrev := l, cnt := 0,
      top := Config.topAfterReset s.resetDraws, resetSeen := true, resetDraws := s.resetDraws + 1 } := rfl

theorem State.gateOff_eq (s : State) : s.gateOff = { s with gate := .disabled, phase := 0, out := 0x00 } := rfl

/-! The dispatch and sequences. -/

/-- The state an event leads to. -/
def effect (i : Instr) (s : State) : State :=
  match i with
  | .reset l => s.doReset l
  | .tick => s.doTick
  | .edge l => s.doEdge l
  | .pin l => s.doPin l
  | .setTop v => s.doSetTop v
  | .clk => s.doClk
  | .select p => s.doSelect p

theorem exec_eq_effect (i : Instr) (s : State) : exec i s = .next (effect i s) := by
  cases i <;> rfl

theorem runEvents_nil (s : State) : runEvents [] s = .next s := rfl

theorem runEvents_cons (i : Instr) (is : List Instr) (s : State) :
    runEvents (i :: is) s = runEvents is (effect i s) := by
  rw [runEvents, exec_eq_effect]

theorem runEvents_append (is js : List Instr) :
    ∀ s : State, runEvents (is ++ js) s =
      match runEvents is s with
      | .next t => runEvents js t
      | .fault r => .fault r
      | .refused r => .refused r := by
  induction is with
  | nil => exact fun _ => rfl
  | cons i is ih => exact fun s => by rw [List.cons_append, runEvents_cons, runEvents_cons, ih]

/-- A sequence in two parts, the first of which completes. -/
theorem runEvents_append_of_next {is js : List Instr} {s t : State} (h : runEvents is s = .next t) :
    runEvents (is ++ js) s = runEvents js t := by
  rw [runEvents_append, h]

/-- No event writes the configuration. -/
theorem effect_cfg (i : Instr) (s : State) : (effect i s).cfg = s.cfg := by
  cases i with
  | reset l => rfl
  | tick => obtain ⟨_, e⟩ | ⟨_, e⟩ := s.doTick_cases <;> exact (congrArg State.cfg e).trans rfl
  | edge l => obtain ⟨_, e⟩ | ⟨_, e⟩ := s.doEdge_cases l <;> exact (congrArg State.cfg e).trans rfl
  | pin l => obtain ⟨_, e⟩ | ⟨_, _, e⟩ | ⟨_, _, e⟩ := s.doPin_cases l <;> exact (congrArg State.cfg e).trans rfl
  | setTop v => rfl
  | clk => obtain ⟨_, e⟩ | ⟨_, _, e⟩ | ⟨_, _, e⟩ := s.doClk_cases <;> exact (congrArg State.cfg e).trans rfl
  | select p => rfl

/-- A property that every event keeps is kept by a sequence of events. -/
theorem runEvents_keeps {P : State → Prop} (hP : ∀ i s, P s → P (effect i s)) :
    ∀ {is : List Instr} {s t : State}, runEvents is s = .next t → P s → P t := by
  intro is
  induction is with
  | nil =>
    intro s t e h
    cases e
    exact h
  | cons i is ih =>
    intro s t e h
    rw [runEvents_cons] at e
    exact ih e (hP i s h)

end Sys2Proof.Machine
end

