-- ==== Sys2Proof/Laws/PerInstr.lean ====
section
/-! SUPPORT. The family `RowWord`: the event word of an instruction selects its row of `opcode_table.json` by the
row's match and mask (`30_encoding.md` rule R38). -/

namespace Sys2Proof.Laws.RowWord

/-- The row's mask. -/
def rowMask : Instr → EventWord
  | .reset _ => 0xFFFFE
  | .tick => 0xFFFFF
  | .edge _ => 0xFFFFE
  | .pin _ => 0xFFFFE
  | .setTop _ => 0xF0000
  | .clk => 0xFFFFF
  | .select _ => 0xFFF00

/-- The row's match. -/
def rowMatch : Instr → EventWord
  | .reset _ => 0x00000
  | .tick => 0x10000
  | .edge _ => 0x20000
  | .pin _ => 0x30000
  | .setTop _ => 0x40000
  | .clk => 0x50000
  | .select _ => 0x60000

def Statement (i : Instr) : Prop := encode i &&& rowMask i = rowMatch i

theorem reset (l : Level) : Statement (.reset l) := by
  unfold Statement
  revert l
  decide

theorem tick : Statement .tick := by
  unfold Statement
  decide

theorem edge (l : Level) : Statement (.edge l) := by
  unfold Statement
  revert l
  decide

theorem pin (l : Level) : Statement (.pin l) := by
  unfold Statement
  revert l
  decide

theorem setTop (v : TopValue) : Statement (.setTop v) := by
  unfold Statement encode eventWord rowMask rowMatch
  apply BitVec.eq_of_getLsbD_eq
  intro k hk
  rw [BitVec.getLsbD_and, BitVec.getLsbD_append]
  interval_cases k <;> simp

theorem clk : Statement .clk := by
  unfold Statement
  decide

theorem select (p : Byte) : Statement (.select p) := by
  unfold Statement
  revert p
  decide

end Sys2Proof.Laws.RowWord
end

