-- ==== Sys2Proof/Laws/Step.lean ====
section
/-! SUPPORT. Everything a step can do, said once. -/

namespace Sys2Proof.Machine

/-- A sequence of events that is taken runs. -/
theorem takeEvents_next {is : List Instr} {s t : State} (h : takeEvents is s = .next t) :
    (s.resetSeen || startsWithReset is) = true ∧ runEvents is s = .next t := by
  unfold takeEvents at h
  split at h
  · exact ⟨by assumption, h⟩
  · cases h

/-- An input that is taken runs the event of its word or the events of its cycle. -/
theorem takeInput_next {i : Input} {s t : State} (h : takeInput i s = .next t) :
    ∃ is, runEvents is s = .next t ∧
      ((∃ b0 b1 b2 j, i = .word b0 b1 b2 ∧ decodeStored b0 b1 b2 = .event j ∧ is = [j]) ∨
        (∃ p, i = .cycleA p ∧ is = eventsOfCycleA p) ∨ ∃ p, i = .cycleB p ∧ is = eventsOfCycleB p) := by
  cases i with
  | word b0 b1 b2 =>
    simp only [takeInput, takeWord] at h
    split at h
    · rename_i j hj
      exact ⟨[j], (takeEvents_next h).2, .inl ⟨b0, b1, b2, j, rfl, hj, rfl⟩⟩
    · cases h
  | cycleA p => exact ⟨_, (takeEvents_next h).2, .inr (.inl ⟨p, rfl, rfl⟩)⟩
  | cycleB p => exact ⟨_, (takeEvents_next h).2, .inr (.inr ⟨p, rfl, rfl⟩)⟩

/-- A step with a next state either had nothing to take or ran events on the state without its oldest
input. -/
theorem step_cases {s t : State} (h : step s = .next t) :
    (s.inputs = [] ∧ t = s) ∨
      ∃ i rest is, s.inputs = i :: rest ∧ takeInput i (s.writeInputs rest) = .next t ∧
        runEvents is (s.writeInputs rest) = .next t := by
  unfold step at h
  split at h
  · cases h
    exact .inl ⟨by assumption, rfl⟩
  · rename_i i rest hi
    obtain ⟨is, e, _⟩ := takeInput_next h
    exact .inr ⟨i, rest, is, hi, h, e⟩

end Sys2Proof.Machine
end

