-- ==== Sys2Proof/Tests/Slice0.lean ====
section
/-! SUPPORT. The model's own tests. Expected results are the vectors of `95_test_vectors.md` (named in each test's
comment) or are read off the encodings of R38; the illustrative configuration is that of its section 2.5. After
the tests come the witnesses: for every statement with hypotheses, a concrete case that meets them. -/

namespace Sys2Proof.Tests

open Sys2Proof.Machine

/-! Well-formedness: an ill-formed term for each check, and a well-formed one. -/

/-- Section 2.5: TIMER_CLOCK_HZ = 8000000, one known code, fallback 50.0 Hz. -/
def illustrative : BoundaryData := { timerClockHz := 8000000, selTable := [(0x3F, 670)], fallbackDhz := 500 }

theorem test_wf_accepts_illustrative : illustrative.wf = true := by decide

theorem test_wf_refuses_zero_fallback : { illustrative with fallbackDhz := 0 }.wf = false := by decide

theorem test_wf_refuses_zero_period : { illustrative with fallbackDhz := 312501 }.wf = false := by decide

theorem test_wf_accepts_period_one : { illustrative with fallbackDhz := 312500 }.wf = true := by decide

theorem test_wf_refuses_wide_period : { illustrative with fallbackDhz := 4 }.wf = false := by decide

theorem test_wf_refuses_entry : { illustrative with selTable := [(0x3F, 670), (1, 0)] }.wf = false := by decide

theorem test_wf_refuses_two_entries : { illustrative with selTable := [(0x3F, 670), (0x3F, 719)] }.wf = false := by
  decide

theorem test_documented_refuses_short_table : illustrative.documented = false := by decide

theorem test_documented_accepts : Boundary.existsOne.documented = true := by decide

theorem test_start_refuses_tick : startsWithReset [.tick, .reset 0] = false := by decide

theorem test_start_refuses_empty : startsWithReset [] = false := by decide

theorem test_start_accepts_reset : startsWithReset [.reset 1, .tick] = true := by decide

/-! Decoding: words written out from R38's patterns (E1 to E15 of section 2.7). -/

theorem test_decode_reset : decodeWord 0b00000000000000000001#20 = .event (.reset 1) := by decide

theorem test_decode_tick : decodeWord 0b00010000000000000000#20 = .event .tick := by decide

theorem test_decode_edge : decodeWord 0b00100000000000000001#20 = .event (.edge 1) := by decide

theorem test_decode_pin : decodeWord 0b00110000000000000000#20 = .event (.pin 0) := by decide

theorem test_decode_settop : decodeWord 0b01000000000111010010#20 = .event (.setTop 466) := by decide

theorem test_decode_clk : decodeWord 0b01010000000000000000#20 = .event .clk := by decide

theorem test_decode_select : decodeWord 0b01100000000000111111#20 = .event (.select 0x3F) := by decide

/-- E3, E5, E13, E14, E15: reserved. -/
theorem test_decode_reserved :
    decodeWord 0x00002 = .invalid .reservedArg ∧ decodeWord 0x10001 = .invalid .reservedArg ∧
      decodeWord 0x60100 = .invalid .reservedArg ∧ decodeWord 0x70000 = .invalid .reservedOp ∧
      decodeWord 0xF0000 = .invalid .reservedOp := by decide

/-- E8: every `arg` is legal for `SETTOP`. -/
theorem test_decode_settop_all_ones : decodeWord 0x4FFFF = .event (.setTop 65535) := by decide

/-- Section 2.7: 0x6003F is stored as 3F 00 06. -/
theorem test_stored_select : storedInput (.select 0x3F) = .word 0x3F 0x00 0x06 := by decide

/-- R30: the top four bits of the third byte are zero. -/
theorem test_padding_refused : decodeStored 0x3F 0x00 0x16 = .invalid .nonzeroPadding := by decide

theorem test_table_word : decodeTableWord 24 0x401D2 = some (.setTop 466) := by decide

/-! One event on a small state. -/

/-- The illustrative parameters with either polarity. -/
def config (active : Level) : Config where
  activeLevel := active
  waveRom := sineRom
  selMask := 0xBF
  boundary := { toBoundaryData := illustrative, ok := test_wf_accepts_illustrative }

/-- A state in the order of section 2's tuples, with the polarity first. -/
def st (active : Level) (phase out : Byte) (gate : GateState) (enPrev : Level) (top cnt : TopValue) : State where
  phase := phase
  out := out
  gate := gate
  enPrev := enPrev
  top := top
  cnt := cnt
  cfg := config active
  resetSeen := true
  resetDraws := 1
  inputs := []

/-- PHASE, OUT, GATE, EN_PREV, TOP, CNT after an outcome that is a next state. -/
def seen : Host.Outcome State Fault Refusal → Option (Byte × Byte × GateState × Level × TopValue × TopValue)
  | .next s => some (s.phase, s.out, s.gate, s.enPrev, s.top, s.cnt)
  | .fault _ => none
  | .refused _ => none

/-- The refusal of an outcome that is one. -/
def refusal : Host.Outcome State Fault Refusal → Option Refusal
  | .next _ => none
  | .fault _ => none
  | .refused r => some r

/-- T2. -/
theorem test_tick : seen (exec .tick (st 1 2 0x83 .enabled 1 9 4)) = some (3, 0x86, .enabled, 1, 9, 4) := by decide

/-- T4: the wrap of PHASE. -/
theorem test_tick_wraps : seen (exec .tick (st 1 255 0x7A .enabled 1 9 4)) = some (0, 0x7D, .enabled, 1, 9, 4) := by
  decide

/-- G3: EN_PREV untouched by `EDGE`. -/
theorem test_edge_off : seen (exec (.edge 0) (st 1 100 0xD3 .enabled 1 9 4)) = some (0, 0x00, .disabled, 1, 9, 4) := by
  decide

/-- G12: active low, level 1 disables. -/
theorem test_edge_active_low : seen (exec (.edge 1) (st 0 50 0xF6 .enabled 0 9 4)) = some (0, 0, .disabled, 0, 9, 4) := by
  decide

/-- G9: a falling edge. -/
theorem test_pin_falls : seen (exec (.pin 0) (st 1 100 0xD3 .enabled 1 9 4)) = some (0, 0x00, .disabled, 0, 9, 4) := by
  decide

/-- G10: keyed at reset, no edge. -/
theorem test_pin_same : seen (exec (.pin 1) (st 1 0 0x00 .disabled 1 9 4)) = some (0, 0x00, .disabled, 1, 9, 4) := by
  decide

/-- C1. -/
theorem test_settop : seen (exec (.setTop 466) (st 1 7 0x55 .enabled 1 9 4)) = some (7, 0x55, .enabled, 1, 466, 4) := by
  decide

/-- C9: the largest TOP. -/
theorem test_clk_match :
    seen (exec .clk (st 1 0 0x00 .enabled 1 65535 65535)) = some (1, 0x80, .enabled, 1, 65535, 0) := by decide

/-- C7: CNT wraps without a tick. -/
theorem test_clk_wraps : seen (exec .clk (st 1 0 0x00 .enabled 1 3 65535)) = some (0, 0x00, .enabled, 1, 3, 0) := by
  decide

/-- L2: bit 6 ignored. -/
theorem test_select : seen (exec (.select 0x7F) (st 1 7 0x55 .enabled 1 9 4)) = some (7, 0x55, .enabled, 1, 466, 4) := by
  decide

/-- L3: bit 7 kept, fallback. -/
theorem test_select_fallback :
    seen (exec (.select 0xFF) (st 1 7 0x55 .enabled 1 9 4)) = some (7, 0x55, .enabled, 1, 625, 4) := by decide

/-- X2, less TOP, which no test can expect a value of. -/
theorem test_reset :
    (seen (exec (.reset 1) (st 1 100 0xD3 .enabled 0 466 17))).map (fun v => (v.1, v.2.1, v.2.2.1, v.2.2.2.1, v.2.2.2.2.2)) =
      some (0, 0x00, .disabled, 1, 0) := by decide

/-! The step, the ports, the text. -/

/-- The step runs the word it is given as its next. -/
theorem test_step_runs_word : seen (step ((st 1 2 0x83 .enabled 1 9 4).withFetchWord 24 0x10000)) =
    some (3, 0x86, .enabled, 1, 9, 4) := by decide

theorem test_step_refuses_reserved :
    refusal (step ((st 1 2 0x83 .enabled 1 9 4).withFetchWord 24 0x70000)) = some .reservedOperation := by decide

/-- P8 cycle 6: a gate-off and a tick in one cycle. -/
theorem test_cycleA : seen (takeInput (.cycleA { rst := 0, txEn := 0, tick := 1 }) (st 1 2 0x83 .enabled 1 9 4)) =
    some (0, 0x00, .disabled, 0, 9, 4) := by decide

/-- P8 and P9, cycle 0: the first thing after power-up is a cycle with `rst`, here with the pin high (P6). -/
theorem test_power_up_cycles :
    (seen (step { st 1 9 9 .enabled 0 9 4 with resetSeen := false, inputs := [.cycleA { rst := 1, txEn := 1, tick := 1 }] })).map
        (fun v => (v.1, v.2.1, v.2.2.1, v.2.2.2.1)) = some (0, 0x00, .disabled, 1) ∧
      (seen (step { st 1 9 9 .enabled 0 9 4 with resetSeen := false, inputs := [.cycleB { rst := 1, txEn := 1, selIn := 0 }] })).map
        (fun v => (v.1, v.2.1, v.2.2.1, v.2.2.2.1)) = some (0, 0x00, .disabled, 1) := by decide

/-- P9 cycle 14: the gate closes before the period event; the count holds. The period of 0xFF here is L3's. -/
theorem test_cycleB : seen (takeInput (.cycleB { rst := 0, txEn := 0, selIn := 0xFF }) (st 1 2 0x83 .enabled 1 625 625)) =
    some (0, 0x00, .disabled, 0, 625, 625) := by decide

/-- R43's example lines, with a comment. -/
theorem test_text_settop :
    readLine (config 1) ['S', 'E', 'T', 'T', 'O', 'P', ' ', '4', '6', '6', ' ', '#', ' ', 'x'] = some [.setTop 466] := by
  decide

theorem test_text_select :
    readLine (config 1) ['S', 'E', 'L', 'E', 'C', 'T', ' ', '0', 'x', '3', 'F'] = some [.select 0x3F] := by decide

/-- R44 with `ACTIVE_LEVEL = 0`, and a count. -/
theorem test_text_pseudo :
    readStimulus (config 0) [['B', 'O', 'O', 'T'], ['K', 'E', 'Y'], ['T', 'I', 'C', 'K', 'S', ' ', '2'], []] =
      some [.reset 1, .pin 0, .tick, .tick] := by decide

theorem test_text_refuses_wide : readLine (config 1) ['P', 'I', 'N', ' ', '2'] = none := by decide

/-! Witnesses: the hypotheses of the statements of Certificates/Slice0 can be met. -/

theorem witness_TickWritesSampleThenAdvances :
    (st 1 2 0x83 .enabled 1 9 4).gate = .enabled ∧ (st 1 7 0x55 .disabled 1 9 4).gate = .disabled := by decide

theorem witness_EdgeLevelChoosesArm :
    (1 : Level) = (st 1 2 0x83 .enabled 1 9 4).cfg.activeLevel ∧
      (0 : Level) ≠ (st 1 2 0x83 .enabled 1 9 4).cfg.activeLevel := by decide

theorem witness_PinActsOnEitherEdge :
    (1 : Level) = (st 1 0 0 .disabled 1 9 4).enPrev ∧
      ((1 : Level) ≠ (st 1 0 0 .disabled 0 9 4).enPrev ∧ (1 : Level) = (st 1 0 0 .disabled 0 9 4).cfg.activeLevel) ∧
      ((0 : Level) ≠ (st 1 0 0 .enabled 1 9 4).enPrev ∧ (0 : Level) ≠ (st 1 0 0 .enabled 1 9 4).cfg.activeLevel) := by
  decide

theorem witness_SettopTakesEffectAtOnce :
    (st 1 0 0 .enabled 1 9 4).gate = .enabled ∧ (st 1 0 0 .enabled 1 9 4).cnt = 4 ∧
      (st 1 0 0 .enabled 1 9 4).cnt ≠ 5 := by decide

theorem witness_ClkCountsToTopAndTicks :
    ((st 1 0 0 .enabled 1 0 0).gate = .enabled ∧ (st 1 0 0 .enabled 1 0 0).cnt = (st 1 0 0 .enabled 1 0 0).top) ∧
      ((st 1 0 0 .enabled 1 3 65535).gate = .enabled ∧
        (st 1 0 0 .enabled 1 3 65535).cnt ≠ (st 1 0 0 .enabled 1 3 65535).top) ∧
      (st 1 0 0 .disabled 1 2 1).gate = .disabled := by decide

theorem witness_SelectWithStandardMask : (st 1 0 0 .enabled 1 9 4).cfg.selMask = 0xBF := by decide

theorem witness_SelectWithStandardMask_reset : State.reset.cfg.selMask = 0xBF := rfl

theorem witness_EncodeGivesBackDecoded : decodeStored 0xFF 0xFF 0x04 = .event (.setTop 65535) := by decide

/-- Each clause of the reserved words at its boundary. -/
theorem witness_ReservedWordsAreRefused :
    ((7 : Byte).toNat ≥ 7 ∧ (255 : Byte).toNat ≥ 7) ∧ ((0 : Byte) = 0 ∧ (2 : Byte).toNat ≥ 2) ∧
      ((3 : Byte) = 3 ∧ (1 : Byte) ≠ 0) ∧ ((5 : Byte) = 5 ∧ (1 : Byte) ≠ 0) ∧ ((6 : Byte) = 6 ∧ (1 : Byte) ≠ 0) ∧
      ((st 1 0 0 .disabled 0 9 4).writeInputs [.word 0 0 7]).inputs = .word 0 0 7 :: [] := by decide

theorem witness_StepRunsDecodedEvent :
    ((st 1 0 0 .disabled 0 9 4).writeInputs [.word 0 0 1]).inputs = .word 0 0 1 :: [] ∧
      decodeStored 0 0 1 = .event .tick ∧ ((st 1 0 0 .disabled 0 9 4).writeInputs [.word 0 0 1]).resetSeen = true ∧
      ∃ l, decodeStored 1 0 0 = .event (.reset l) := ⟨rfl, by decide, rfl, 1, by decide⟩

/-- The two compositions, with and without reset and tick. -/
theorem witness_StepRunsClockCycle :
    (st 1 0 0 .disabled 0 9 4).resetSeen = true ∧
      ((st 1 0 0 .disabled 0 9 4).writeInputs [.cycleA { rst := 0, txEn := 1, tick := 1 }]).inputs =
        .cycleA { rst := 0, txEn := 1, tick := 1 } :: [] ∧
      ((st 1 0 0 .disabled 0 9 4).writeInputs [.cycleB { rst := 0, txEn := 1, selIn := 9 }]).inputs =
        .cycleB { rst := 0, txEn := 1, selIn := 9 } :: [] ∧
      ({ rst := 1, txEn := 1, tick := 0 } : PortsA).rst = 1 ∧ ({ rst := 0, txEn := 1, tick := 0 } : PortsA).tick = 0 ∧
      ({ rst := 1, txEn := 1, selIn := 0 } : PortsB).rst = 1 := by decide

/-- Before the first reset: a tick, a cycle of each composition without and with `rst`, a reset. -/
theorem witness_RunBeginsWithReset :
    { st 1 0 0 .disabled 0 9 4 with resetSeen := false, inputs := [.word 0 0 1] }.resetSeen = false ∧
      decodeStored 0 0 1 = .event .tick ∧ (∀ l, Instr.tick ≠ .reset l) ∧
      ({ rst := 0, txEn := 1, tick := 0 } : PortsA).rst = 0 ∧ ({ rst := 0, txEn := 1, selIn := 0 } : PortsB).rst = 0 ∧
      { st 1 0 0 .disabled 0 9 4 with resetSeen := false, inputs := [storedInput (.reset 1)] }.inputs =
        storedInput (.reset 1) :: [] ∧
      { st 1 0 0 .disabled 0 9 4 with resetSeen := false, inputs := [.cycleA { rst := 1, txEn := 1, tick := 1 }] }.inputs =
        .cycleA { rst := 1, txEn := 1, tick := 1 } :: [] ∧
      { st 1 0 0 .disabled 0 9 4 with resetSeen := false, inputs := [.cycleB { rst := 1, txEn := 1, selIn := 9 }] }.inputs =
        .cycleB { rst := 1, txEn := 1, selIn := 9 } :: [] := by decide

theorem witness_NothingPresentedNothingChanges : State.reset.inputs = [] := rfl

theorem witness_LoadedStimulusRunsInOrder :
    State.reset.inputs = [] ∧ State.reset.resetSeen = true ∧ startsWithReset [.reset 1, .tick] = true :=
  ⟨rfl, rfl, by decide⟩

theorem witness_KeyedAtPowerUpStaysSilent :
    ∀ i ∈ [Instr.pin 1, .tick, .clk, .setTop 0, .select 0x3F],
      i = .pin (st 1 7 0x55 .enabled 0 9 4).cfg.activeLevel ∨ i = .tick ∨ i = .clk ∨ (∃ v, i = .setTop v) ∨
        ∃ p, i = .select p := by
  intro i hi
  simp only [List.mem_cons, List.not_mem_nil, or_false] at hi
  obtain rfl | rfl | rfl | rfl | rfl := hi
  · exact .inl rfl
  · exact .inr (.inl rfl)
  · exact .inr (.inr (.inl rfl))
  · exact .inr (.inr (.inr (.inl ⟨_, rfl⟩)))
  · exact .inr (.inr (.inr (.inr ⟨_, rfl⟩)))

/-- A quiet state with a word to take, and a step that answers a next state. -/
theorem witness_StepKeepsQuiet :
    ∃ s t, Quiet s ∧ s.inputs ≠ [] ∧ step s = .next t :=
  ⟨(st 1 0 0 .disabled 0 9 4).withFetchWord 24 0x20001, _, fun _ => ⟨rfl, rfl⟩, by decide, rfl⟩

/-- A run from reset that ends with the gate disabled. -/
theorem witness_SilentWheneverDisabled :
    ∃ t, runEvents [.reset 0, .edge 1, .tick, .edge 0] (st 1 9 9 .enabled 0 9 4) = .next t ∧ t.gate = .disabled :=
  ⟨_, rfl, by decide⟩

theorem witness_RomReadsAreStable :
    ∃ t, step ((st 1 2 0x83 .enabled 1 9 4).withFetchWord 24 0x10000) = .next t := ⟨_, rfl⟩

/-- Every element is changed by some event. -/
theorem witness_StateHasItsOwners :
    ∃ s t, exec (.pin 0) s = .next t ∧ t.out ≠ s.out ∧ t.phase ≠ s.phase ∧ t.gate ≠ s.gate ∧ t.enPrev ≠ s.enPrev :=
  ⟨st 1 100 0xD3 .enabled 1 9 4, _, rfl, by decide, by decide, by decide, by decide⟩

theorem witness_StateHasItsOwners_timer :
    ∃ s t u, exec .clk s = .next t ∧ t.cnt ≠ s.cnt ∧ exec (.setTop 1) s = .next u ∧ u.top ≠ s.top :=
  ⟨st 1 100 0xD3 .enabled 1 9 4, _, _, rfl, by decide, rfl, by decide⟩

/-- An accepted tick, a disable arm and a holding event. -/
theorem witness_OutputMuxHasThreeWays :
    acceptsTick .clk (st 1 0 0 .enabled 1 2 2) = true ∧
      performsEdge (.pin 0) (st 1 0 0 .enabled 1 2 2) (1 - (st 1 0 0 .enabled 1 2 2).cfg.activeLevel) = true ∧
      acceptsTick .tick (st 1 0 0 .disabled 1 2 2) = false ∧ Instr.isReset .tick = false ∧
      performsEdge .tick (st 1 0 0 .disabled 1 2 2) (1 - (st 1 0 0 .disabled 1 2 2).cfg.activeLevel) = false := by
  decide

/-- Every kind of event that may lie between, and three accepted ticks. -/
theorem witness_PhaseLawOfAcceptedTicks :
    (st 1 254 9 .enabled 0 9 9).gate = .enabled ∧
      keepsToneAlong [.tick, .pin 0, .edge 1, .clk, .clk, .pin 1, .setTop 1, .select 0x3F, .tick]
        (st 1 254 9 .enabled 0 9 9) = true ∧
      1 ≤ ticksAlong [.tick, .pin 0, .edge 1, .clk, .clk, .pin 1, .setTop 1, .select 0x3F, .tick]
        (st 1 254 9 .enabled 0 9 9) := by decide

theorem witness_FullCycleOfTicksReturnsPhase : (st 1 7 9 .enabled 1 9 4).gate = .enabled := by decide

theorem witness_OnsetAlwaysStartsFromIndexZero :
    ∃ t, runEvents [.reset 0, .edge 1, .tick, .edge 0] (st 1 9 9 .enabled 0 9 4) = .next t ∧ t.gate = .disabled :=
  ⟨_, rfl, by decide⟩

theorem witness_EdgeIsIdempotent : (st 1 100 0xD3 .enabled 1 9 4).gate = .enabled := by decide

theorem witness_OnsetAndReleaseSteps :
    Quiet (st 1 0 0 .disabled 0 9 4) ∧ (st 1 0 0 .disabled 0 9 4).gate = .disabled ∧
      (st 1 0 0 .disabled 0 9 4).cfg.waveRom = sineRom := ⟨fun _ => ⟨rfl, rfl⟩, rfl, rfl⟩

theorem witness_DisabledGateHoldsStill :
    (st 1 7 0x55 .disabled 0 9 4).gate = .disabled ∧ ∀ i ∈ [Instr.tick, .clk, .tick], i = .tick ∨ i = .clk := by
  decide

theorem witness_CoincidentGateAndTick :
    (st 1 7 0x55 .enabled 0 9 4).gate = .enabled ∧ (st 1 0 0 .disabled 0 9 4).gate = .disabled := by decide

theorem witness_GateOffBeatsTimerInCycle :
    ((st 1 7 0x55 .enabled 1 9 9).writeInputs [.cycleB { rst := 0, txEn := 1 - 1, selIn := 0 }]).resetSeen = true ∧
      (st 1 7 0x55 .enabled 1 9 9).enPrev = (st 1 7 0x55 .enabled 1 9 9).cfg.activeLevel ∧
      ((st 1 7 0x55 .enabled 1 9 9).writeInputs [.cycleA { rst := 0, txEn := 1 - 1, tick := 1 }]).inputs =
        .cycleA { rst := 0, txEn := 1 - (st 1 7 0x55 .enabled 1 9 9).cfg.activeLevel, tick := 1 } :: [] := by decide

theorem witness_PolarityOnlySwapsLevels :
    (∀ i ∈ [Instr.pin 1, .tick, .pin 0], i.isReset = false) ∧
      ∃ t, runEvents [.pin 1, .tick, .pin 0] (st 1 0 0 .disabled 0 9 4) = .next t := ⟨by decide, _, rfl⟩

/-- Two states that differ in TOP and CNT, and runs of both without `CLK`. -/
theorem witness_CoreIgnoresTimerAndSelector :
    CoreAgrees (st 1 7 0x55 .enabled 0 9 4) (st 1 7 0x55 .enabled 0 1 0) ∧
      (∀ i ∈ [Instr.tick, .select 0x3F, .edge 0], i ≠ .clk) ∧
      (∃ s', runEvents [.tick, .select 0x3F, .edge 0] (st 1 7 0x55 .enabled 0 9 4) = .next s') ∧
      ∃ t', runEvents [.tick, .select 0x3F, .edge 0] (st 1 7 0x55 .enabled 0 1 0) = .next t' :=
  ⟨⟨rfl, rfl, rfl, rfl, rfl, rfl⟩, by decide, ⟨_, rfl⟩, ⟨_, rfl⟩⟩

/-- Both clauses where they meet: CNT equal to TOP, CNT one above TOP, and the largest CNT. -/
theorem witness_ClocksUntilPeriodEvent :
    (∃ s : State, s.gate = .enabled ∧ s.cnt.toNat = s.top.toNat ∧ s.clocksToEvent = 1) ∧
      (∃ s : State, s.gate = .enabled ∧ s.cnt.toNat = s.top.toNat + 1 ∧ s.clocksToEvent = 65536) ∧
      ∃ s : State, s.gate = .enabled ∧ s.cnt.toNat = 65535 ∧ s.top.toNat = 0 ∧ s.clocksToEvent = 2 :=
  ⟨⟨st 1 0 0 .enabled 1 9 9, by decide⟩, ⟨st 1 0 0 .enabled 1 9 10, by decide⟩, ⟨st 1 0 0 .enabled 1 0 65535, by decide⟩⟩

theorem witness_PeriodEventsAreTopPlusOneApart :
    (st 1 0 0 .enabled 1 9 9).gate = .enabled ∧ (st 1 0 0 .enabled 1 9 9).cnt = (st 1 0 0 .enabled 1 9 9).top := by
  decide

theorem witness_SineCycleTakesItsClocks :
    (st 1 0 0 .enabled 1 9 9).gate = .enabled ∧
      (st 1 0 0 .enabled 1 9 9).cnt.toNat ≤ (st 1 0 0 .enabled 1 9 9).top.toNat := by decide

/-- A count equal to the selected period of 0x3F, and one that is not. -/
theorem witness_SelectorInForceSameCycle :
    (st 1 0 0 .enabled 1 9 466).resetSeen = true ∧ (st 1 0 0 .enabled 1 9 466).gate = .enabled ∧
      ((st 1 0 0 .enabled 1 9 466).writeInputs [.cycleB { rst := 0, txEn := 1, selIn := 0x3F }]).inputs =
        .cycleB { rst := 0, txEn := (st 1 0 0 .enabled 1 9 466).enPrev, selIn := 0x3F } :: [] ∧
      (st 1 0 0 .enabled 1 9 466).cnt.toNat = selectedPeriod (st 1 0 0 .enabled 1 9 466).cfg 0x3F ∧
      (st 1 0 0 .enabled 1 9 466).cnt.toNat ≠ selectedPeriod (st 1 0 0 .enabled 1 9 466).cfg 0xFF := by decide

theorem witness_SelectorIgnoresBitSix : (st 1 0 0 .enabled 1 9 4).cfg.selMask = 0xBF ∧ (7 : Nat) ≠ 6 := by decide

/-- The machine right after reset has a documented table. -/
theorem witness_KnownCodeAndFallback :
    State.reset.cfg.selMask = 0xBF ∧ State.reset.cfg.boundary.documented = true ∧ (0x80 : Byte).getLsbD 7 = true :=
  ⟨rfl, Config.openBoundary.documented, by decide⟩

theorem witness_PeriodFallsWithFrequency : 0 < 670 ∧ 670 ≤ 719 := by decide

theorem witness_ReferenceTimerMeetsContract :
    acceptsTick .clk (st 1 0 0 .enabled 1 9 9) = true ∧ (st 1 0 0 .disabled 1 9 9).gate = .disabled := by decide

theorem witness_PinsShowOutAndGate :
    (st 1 0 0 .enabled 1 9 9).gate = .enabled ∧ (st 1 0 0 .disabled 1 9 9).gate = .disabled := by decide

theorem witness_IllFormedConfigurationRefused :
    illustrative.wf = true ∧ { illustrative with fallbackDhz := 0 }.wf = false := by decide

end Sys2Proof.Tests
end

/-! R25 for every run: `RESET` establishes `Quiet`, every event keeps it, so every sequence does. -/

namespace Sys2Proof.Machine

/-- `Quiet` says nothing of a state whose gate is enabled. -/
theorem quiet_of_enabled {s : State} (h : s.gate = .enabled) : Quiet s :=
  fun hd => nomatch h.symm.trans hd

/-- The disable arm of R53 clears PHASE and OUT, whatever the state before. -/
theorem quiet_gateOff (s : State) : Quiet s.gateOff := fun _ => ⟨rfl, rfl⟩

theorem quiet_doReset (s : State) (l : Level) : Quiet (s.doReset l) := fun _ => ⟨rfl, rfl⟩

theorem Quiet.doTick {s : State} (h : Quiet s) : Quiet s.doTick := by
  obtain ⟨hg, e⟩ | ⟨-, e⟩ := s.doTick_cases <;> rw [e]
  · exact quiet_of_enabled hg
  · exact h

theorem quiet_doEdge (s : State) (l : Level) : Quiet (s.doEdge l) := by
  obtain ⟨-, e⟩ | ⟨-, e⟩ := s.doEdge_cases l <;> rw [e]
  · exact quiet_of_enabled s.startCounting_gate
  · exact quiet_gateOff s

theorem Quiet.doPin {s : State} (h : Quiet s) (l : Level) : Quiet (s.doPin l) := by
  by_cases hl : l = s.enPrev
  · rw [State.doPin_of_same hl]
    exact h
  · rw [State.doPin_of_change hl]
    exact quiet_doEdge _ l

theorem Quiet.doClk {s : State} (h : Quiet s) : Quiet s.doClk := by
  obtain ⟨-, e⟩ | ⟨hg, -, e⟩ | ⟨hg, -, e⟩ := s.doClk_cases <;> rw [e]
  · exact h
  · exact quiet_of_enabled hg
  · exact quiet_of_enabled hg

/-- R25's invariant is kept by every event. `SETTOP` and `SELECT` write TOP alone, which it does not read. -/
theorem Quiet.effect {s : State} (h : Quiet s) (i : Instr) : Quiet (effect i s) := by
  cases i with
  | reset l => exact quiet_doReset s l
  | tick => exact h.doTick
  | edge l => exact quiet_doEdge s l
  | pin l => exact h.doPin l
  | setTop v => exact h
  | clk => exact h.doClk
  | select p => exact h

theorem Quiet.runEvents {is : List Instr} {s t : State} (h : Quiet s) (e : runEvents is s = .next t) : Quiet t :=
  runEvents_keeps (fun i _ hs => hs.effect i) e h

/-- Settles O28: `Quiet` holds after the `RESET` and is carried along the rest of the sequence. -/
theorem silentWheneverDisabled : Obligations.SilentWheneverDisabled := by
  intro l is s t e
  rw [runEvents_cons] at e
  exact (quiet_doReset s l).runEvents e

end Sys2Proof.Machine

/-! The reference timer (R60): `CLK` on each of the three kinds of state, and its place in a cycle (R41). -/

namespace Sys2Proof.Machine

/-- R41: without `rst` the gate comes first, then the selector, then the timer clock. -/
theorem eventsOfCycleB_of_not_rst {p : PortsB} (h : p.rst ≠ 1) :
    eventsOfCycleB p = [.pin p.txEn, .select p.selIn, .clk] := if_neg h

/-- Settles O6: the three arms are the laws of `doClk`, one per case of the gate and of the compare. -/
theorem clkCountsToTopAndTicks : Obligations.ClkCountsToTopAndTicks := by
  intro s
  refine ⟨fun hg hc => ?_, fun hg hc => ?_, fun hg => ?_, rfl, fun l p => ?_⟩
  · exact congrArg Host.Outcome.next (State.doClk_of_match hg hc)
  · exact congrArg Host.Outcome.next (State.doClk_of_count hg hc)
  · exact congrArg Host.Outcome.next (State.doClk_of_disabled hg)
  · rw [eventsOfCycleB_of_not_rst (by simp)]
    rfl

end Sys2Proof.Machine

/-! The gate handler (R53, R55), its edge detector (R52), and its place in a cycle (R41). -/

namespace Sys2Proof.Machine

/-- Enabling an enabled gate writes the value it has. -/
theorem State.startCounting_of_enabled {s : State} (h : s.gate = .enabled) : s.startCounting = s := by
  rw [State.startCounting, ← h]

/-- R55: the level alone chooses the arm, and each arm writes the same values again. -/
theorem State.doEdge_doEdge (s : State) (l : Level) : (s.doEdge l).doEdge l = s.doEdge l := by
  by_cases h : l = s.cfg.activeLevel
  · rw [State.doEdge_of_active h]
    exact State.doEdge_of_active h
  · rw [State.doEdge_of_inactive h]
    exact State.doEdge_of_inactive h

/-- R55: an inactive glitch runs the disable arm and then the enable arm, which keeps the cleared PHASE and OUT. -/
theorem State.doEdge_inactive_then_active (s : State) :
    (s.doEdge (inactiveOf s.cfg)).doEdge s.cfg.activeLevel = s.gateOff.startCounting := by
  rw [State.doEdge_of_inactive (inactiveOf_ne s.cfg)]
  exact State.doEdge_of_active rfl

/-- An event word whose argument is a level: the level is added to the row's base word (R38). -/
theorem eventWord_level (op : BitVec 4) (l : Level) :
    eventWord op (l.setWidth 16) = eventWord op 0 + l.setWidth 20 := by
  revert op l
  decide

/-- R41: without `rst` the gate comes first in composition A, then the tick. -/
theorem eventsOfCycleA_of_not_rst {p : PortsA} (h : p.rst ≠ 1) :
    eventsOfCycleA p = .pin p.txEn :: (if p.tick = 1 then [.tick] else []) := by
  rw [eventsOfCycleA, if_neg h]
  split <;> rfl

/-- Settles O3: the two arms are the laws of `doEdge`, one per kind of level. -/
theorem edgeLevelChoosesArm : Obligations.EdgeLevelChoosesArm := by
  intro l s
  refine ⟨fun ha => ?_, fun hi => ?_, eventWord_level 0x2 l⟩
  · exact congrArg Host.Outcome.next (State.doEdge_of_active ha)
  · exact congrArg Host.Outcome.next (State.doEdge_of_inactive hi)

/-- Settles O4: without a change of level `doPin` is the identity; with one it is the gate handler on the state that
has stored the level. -/
theorem pinActsOnEitherEdge : Obligations.PinActsOnEitherEdge := by
  intro l s
  refine ⟨fun hs => ?_, fun hc ha => ?_, fun hc hi => ?_, eventWord_level 0x3 l, fun k => ?_, fun p => ?_⟩
  · exact congrArg Host.Outcome.next (State.doPin_of_same hs)
  · exact congrArg Host.Outcome.next ((State.doPin_of_change hc).trans (State.doEdge_of_active ha))
  · exact congrArg Host.Outcome.next ((State.doPin_of_change hc).trans (State.doEdge_of_inactive hi))
  · rw [eventsOfCycleA_of_not_rst (by simp)]
    rfl
  · rw [eventsOfCycleB_of_not_rst (by simp)]
    rfl

/-- Settles O35: a repeated arm by `doEdge_doEdge`, the enable arm on an enabled gate by `startCounting_of_enabled`,
a glitch by `doEdge_inactive_then_active`. -/
theorem edgeIsIdempotent : Obligations.EdgeIsIdempotent := by
  intro l s
  refine ⟨?_, fun hg => ?_, ?_⟩
  · rw [runEvents_cons, runEvents_cons, runEvents_nil]
    exact congrArg Host.Outcome.next (s.doEdge_doEdge l)
  · exact congrArg Host.Outcome.next ((State.doEdge_of_active rfl).trans (State.startCounting_of_enabled hg))
  · rw [runEvents_cons, runEvents_cons, runEvents_nil]
    exact congrArg Host.Outcome.next s.doEdge_inactive_then_active

end Sys2Proof.Machine

/-! The frequency selector (R62 to R65): the value `SELECT` loads, and its event word. -/

namespace Sys2Proof.Machine

/-- R64: the period fits TOP, so TOP holds the whole number. -/
theorem State.doSelect_top_toNat (s : State) (p : Byte) :
    (s.doSelect p).top.toNat = selectedPeriod s.cfg p :=
  (BitVec.toNat_ofNat _ _).trans (Nat.mod_eq_of_lt (Nat.lt_succ_of_le (selectedPeriod_fits s.cfg p).2))

/-- R64: the divisor is never zero, for a quotient by zero is zero and R9 bounds the quotient from below by one. -/
theorem targetDhz_pos (c : Config) (code : Byte) : 0 < targetDhz c code := by
  have hfit := (Boundary.fits c.boundary (targetDhz_known c code)).1
  rw [Nat.pos_iff_ne_zero]
  intro h0
  rw [h0, periodOf, Nat.div_zero] at hfit
  exact absurd hfit (by decide)

/-- The number an event word is: `op` above the sixteen bits of `arg` (R37). -/
theorem toNat_eventWord (op : BitVec 4) (arg : BitVec 16) :
    (eventWord op arg).toNat = op.toNat * 2 ^ 16 + arg.toNat := by
  rw [eventWord, BitVec.toNat_append, ← Nat.shiftLeft_add_eq_or_of_lt arg.isLt, Nat.shiftLeft_eq]

/-- An event word is its row's base word with the argument added (R37, R38). -/
theorem eventWord_eq_add (op : BitVec 4) (arg : BitVec 16) :
    eventWord op arg = eventWord op 0#16 + arg.setWidth 20 := by
  apply BitVec.eq_of_toNat_eq
  rw [BitVec.toNat_add, toNat_eventWord, toNat_eventWord, BitVec.toNat_setWidth, BitVec.toNat_zero]
  omega

/-- Settles O8: under the mask 0xBF the period `doSelect` loads is R65's quotient, unwrapped; the word is the base word
of `SELECT` with the port value added. -/
theorem selectWithStandardMask : Obligations.SelectWithStandardMask := by
  intro p s hmask
  refine ⟨⟨(s.doSelect p).top, rfl, ?_⟩, ?_, fun l => ?_⟩
  · rw [← hmask]
    exact s.doSelect_top_toNat p
  · have hw : (p.setWidth 16).setWidth 20 = p.setWidth 20 := BitVec.setWidth_setWidth (by decide)
    rw [← hw]
    exact eventWord_eq_add 0x6 (p.setWidth 16)
  · rw [eventsOfCycleB_of_not_rst (by simp)]
    simp

/-- Settles O48: the period is positive and fits by the well-formedness of the configuration (R9), and so the divisor is
positive. -/
theorem periodIsPositiveAndFits : Obligations.PeriodIsPositiveAndFits := by
  intro p s
  have htop := s.doSelect_top_toNat p
  exact ⟨s.doSelect p, rfl, htop, htop ▸ (selectedPeriod_fits s.cfg p).1, targetDhz_pos s.cfg (maskedCode s.cfg p)⟩

end Sys2Proof.Machine

/-! R75: the effect of an event is total, so the effect of a sequence is the fold of it. -/

namespace Sys2Proof.Machine

/-- A sequence of events leads to the state that their effects, folded from the first to the last, lead to. -/
theorem runEvents_eq_foldl (is : List Instr) :
    ∀ s : State, runEvents is s = .next (is.foldl (fun t i => effect i t) s) := by
  induction is with
  | nil => exact runEvents_nil
  | cons i is ih =>
    intro s
    rw [runEvents_cons, List.foldl_cons]
    exact ih (effect i s)

/-- Settles O9: an event answers its effect, and a sequence the fold of the effects of its events. -/
theorem everySequenceCompletes : Obligations.EverySequenceCompletes :=
  ⟨fun i s => ⟨effect i s, exec_eq_effect i s⟩, fun is s => ⟨_, runEvents_eq_foldl is s⟩⟩

end Sys2Proof.Machine

/-! R82: the registers and the output pins after `RESET`. -/

namespace Sys2Proof.Machine

@[simp] theorem State.doReset_gate (s : State) (l : Level) : (s.doReset l).gate = .disabled := rfl
@[simp] theorem State.doReset_enPrev (s : State) (l : Level) : (s.doReset l).enPrev = l := rfl
@[simp] theorem State.doReset_cnt (s : State) (l : Level) : (s.doReset l).cnt = 0 := rfl

theorem State.dacOut_eq_out (s : State) : s.dacOut = s.out := rfl

theorem State.countEn_of_disabled {s : State} (h : s.gate = .disabled) : s.countEn = 0 :=
  congrArg gateCode h

/-- Settles O22: `RESET` disables the gate, so by R25 (`quiet_doReset`) PHASE and OUT are zero; the pins show OUT and
GATE. -/
theorem outputsAfterReset : Obligations.OutputsAfterReset := by
  intro l s
  have hgate := s.doReset_gate l
  obtain ⟨hphase, hout⟩ := quiet_doReset s l hgate
  have hdac := (s.doReset l).dacOut_eq_out.trans hout
  exact ⟨s.doReset l, exec_eq_effect (.reset l) s, hphase, hout, hgate, s.doReset_enPrev l, s.doReset_cnt l, hdac,
    State.countEn_of_disabled hgate⟩

end Sys2Proof.Machine

/-! The encoder and the decoder are inverse to each other (R37 to R39): a word decodes to an event exactly when it is
that event's word. -/

namespace Sys2Proof

/-- An argument that is a level passes the check of its upper bits and gives the level back, and no other argument
passes (R38). -/
theorem decodeLevelArg_eq_event_iff {arg : BitVec 16} {mk : Level → Instr} {i : Instr} :
    decodeLevelArg arg mk = .event i ↔ ∃ l : Level, arg = l.setWidth 16 ∧ mk l = i := by
  constructor
  · intro h
    rw [decodeLevelArg] at h
    split at h
    · rename_i hz
      exact ⟨_, (setWidth_level hz).symm, Decoded.event.inj h⟩
    · cases h
  · rintro ⟨l, rfl, rfl⟩
    have hz : ∀ l : Level, (l.setWidth 16).extractLsb' 1 15 = 0 ∧ (l.setWidth 16).extractLsb' 0 1 = l := by decide
    rw [decodeLevelArg, if_pos (hz l).1, (hz l).2]

/-- The same for an argument that is a byte (R38). -/
theorem decodeByteArg_eq_event_iff {arg : BitVec 16} {mk : Byte → Instr} {i : Instr} :
    decodeByteArg arg mk = .event i ↔ ∃ p : Byte, arg = p.setWidth 16 ∧ mk p = i := by
  constructor
  · intro h
    rw [decodeByteArg] at h
    split at h
    · rename_i hz
      exact ⟨_, (setWidth_byte hz).symm, Decoded.event.inj h⟩
    · cases h
  · rintro ⟨p, rfl, rfl⟩
    have hz : ∀ p : Byte, (p.setWidth 16).extractLsb' 8 8 = 0 ∧ (p.setWidth 16).extractLsb' 0 8 = p := by decide
    rw [decodeByteArg, if_pos (hz p).1, (hz p).2]

theorem decodeNoArg_eq_event_iff {arg : BitVec 16} {i j : Instr} :
    decodeNoArg arg j = .event i ↔ arg = 0 ∧ j = i := by
  rw [decodeNoArg]
  split <;> simp_all

theorem decodeWord_eventWord (op : BitVec 4) (arg : BitVec 16) :
    decodeWord (eventWord op arg) = decodeFields op arg := by
  rw [decodeWord, opField_eventWord, argField_eventWord]

/-- R38, from the event to the word: its row's `op` selects its argument form, which takes its argument. -/
theorem decodeWord_encode (i : Instr) : decodeWord (encode i) = .event i := by
  cases i <;> rw [encode, decodeWord_eventWord]
  case reset l => exact decodeLevelArg_eq_event_iff.mpr ⟨l, rfl, rfl⟩
  case tick => rfl
  case edge l => exact decodeLevelArg_eq_event_iff.mpr ⟨l, rfl, rfl⟩
  case pin l => exact decodeLevelArg_eq_event_iff.mpr ⟨l, rfl, rfl⟩
  case setTop v => rfl
  case clk => rfl
  case select p => exact decodeByteArg_eq_event_iff.mpr ⟨p, rfl, rfl⟩

/-- R38, from the fields to the event: whichever row `op` selects, the argument is the one that row writes. -/
theorem eventWord_of_decodeFields {op : BitVec 4} {arg : BitVec 16} {i : Instr} (h : decodeFields op arg = .event i) :
    eventWord op arg = encode i := by
  simp only [decodeFields] at h
  split_ifs at h with h0 h1 h2 h3 h4 h5 h6
  · obtain ⟨l, rfl, rfl⟩ := decodeLevelArg_eq_event_iff.mp h
    rw [h0, encode]
  · obtain ⟨rfl, rfl⟩ := decodeNoArg_eq_event_iff.mp h
    rw [h1, encode]
  · obtain ⟨l, rfl, rfl⟩ := decodeLevelArg_eq_event_iff.mp h
    rw [h2, encode]
  · obtain ⟨l, rfl, rfl⟩ := decodeLevelArg_eq_event_iff.mp h
    rw [h3, encode]
  · cases h
    rw [h4, encode]
  · obtain ⟨rfl, rfl⟩ := decodeNoArg_eq_event_iff.mp h
    rw [h5, encode]
  · obtain ⟨p, rfl, rfl⟩ := decodeByteArg_eq_event_iff.mp h
    rw [h6, encode]

/-- R37, R38: a word decodes to an event exactly when it is that event's word. -/
theorem decodeWord_eq_event_iff {w : EventWord} {i : Instr} : decodeWord w = .event i ↔ w = encode i := by
  constructor
  · intro h
    rw [← eventWord_fields w]
    exact eventWord_of_decodeFields h
  · rintro rfl
    exact decodeWord_encode i

/-- Reading three bytes with a zero top nibble as a word and storing it gives the bytes back (R30). -/
theorem stored_wordOfBytes {b0 b1 b2 : Byte} (h : b2.extractLsb' 4 4 = 0) :
    storedByte0 (wordOfBytes b0 b1 b2) = b0 ∧ storedByte1 (wordOfBytes b0 b1 b2) = b1 ∧
      storedByte2 (wordOfBytes b0 b1 b2) = b2 := by
  refine ⟨BitVec.eq_of_getLsbD_eq fun k hk => ?_, BitVec.eq_of_getLsbD_eq fun k hk => ?_,
    BitVec.eq_of_getLsbD_eq fun k hk => ?_⟩
  · simp [hk, -BitVec.getLsbD_eq_getElem]
  · simp [hk, show 8 + k < 16 by omega, -BitVec.getLsbD_eq_getElem]
  · by_cases h4 : k < 4
    · simp [h4, show ¬16 + k < 8 by omega, -BitVec.getLsbD_eq_getElem]
    · have hz : (b2.extractLsb' 4 4).getLsbD (k - 4) = false := by simp [h]
      rw [BitVec.getLsbD_extractLsb', show 4 + (k - 4) = k by omega] at hz
      simp_all [show k - 4 < 4 by omega, -BitVec.getLsbD_eq_getElem]

/-- R30: three bytes decode to an event exactly when they are that event as the environment stores it. -/
theorem decodeStored_eq_event_iff {b0 b1 b2 : Byte} {i : Instr} :
    decodeStored b0 b1 b2 = .event i ↔ storedInput i = .word b0 b1 b2 := by
  constructor
  · intro h
    rw [decodeStored] at h
    split at h
    · rename_i hpad
      obtain ⟨e0, e1, e2⟩ := stored_wordOfBytes hpad (b0 := b0) (b1 := b1)
      rw [storedInput, ← decodeWord_eq_event_iff.mp h, e0, e1, e2]
    · cases h
  · intro h
    obtain ⟨rfl, rfl, rfl⟩ := Input.word.inj h
    rw [decodeStored_stored, decodeWord_encode]

/-- Settles O11: the word by `decodeWord_encode`, and the stored bytes decode as the word. -/
theorem decodeGivesBackEncoded : Obligations.DecodeGivesBackEncoded :=
  fun i => ⟨decodeWord_encode i, decodeStored_eq_event_iff.mpr rfl⟩

/-- Settles O12: the bytes are the stored ones, and reading stored bytes gives the word that was stored. -/
theorem encodeGivesBackDecoded : Obligations.EncodeGivesBackDecoded := by
  intro b0 b1 b2 i h
  have hbytes := decodeStored_eq_event_iff.mp h
  obtain ⟨rfl, rfl, rfl⟩ := Input.word.inj hbytes
  exact ⟨hbytes, wordOfBytes_stored (encode i)⟩

/-- A word under a row's mask, which keeps `op` and the bits of `arg` from bit `n` on, is the row's match: then its
`arg` is its low `n` bits (R38). -/
theorem eq_eventWord_of_row (n : Nat) {w : EventWord} {op : BitVec 4}
    (h : w &&& eventWord 0xF (BitVec.allOnes 16 <<< n) = eventWord op 0) :
    w = eventWord op (((argField w).setWidth n).setWidth 16) := by
  have hop : opField w = op := by
    apply BitVec.eq_of_getLsbD_eq
    intro k hk
    have hbit := congrArg (·.getLsbD (16 + k)) h
    have hF : (0xF#4).getLsbD k = true := by interval_cases k <;> rfl
    simpa [hk, hF, -BitVec.getLsbD_eq_getElem] using hbit
  have harg : argField w = ((argField w).setWidth n).setWidth 16 := by
    apply BitVec.eq_of_getLsbD_eq
    intro k hk
    have hbit := congrArg (·.getLsbD k) h
    by_cases hn : k < n
    · simp [hk, hn, -BitVec.getLsbD_eq_getElem]
    · simpa [hk, hn, show k - n < 16 by omega, -BitVec.reduceAllOnes, -BitVec.getLsbD_eq_getElem] using hbit
  rw [← harg, ← hop, eventWord_fields]

/-- Settles O13: from left to right the rows' words (`RowWord`), from right to left `eq_eventWord_of_row` with as many
low bits as the row's argument has. -/
theorem wordIsEventIffRowMatches : Obligations.WordIsEventIffRowMatches := by
  intro w
  constructor
  · rintro ⟨i, hi⟩
    rw [decodeWord_eq_event_iff.mp hi]
    cases i with
    | reset l => exact .inl (Laws.RowWord.reset l)
    | tick => exact .inr (.inl Laws.RowWord.tick)
    | edge l => exact .inr (.inr (.inl (Laws.RowWord.edge l)))
    | pin l => exact .inr (.inr (.inr (.inl (Laws.RowWord.pin l))))
    | setTop v => exact .inr (.inr (.inr (.inr (.inl (Laws.RowWord.setTop v)))))
    | clk => exact .inr (.inr (.inr (.inr (.inr (.inl Laws.RowWord.clk)))))
    | select p => exact .inr (.inr (.inr (.inr (.inr (.inr (Laws.RowWord.select p))))))
  · simp only [decodeWord_eq_event_iff]
    rintro (h | h | h | h | h | h | h)
    · exact ⟨.reset _, eq_eventWord_of_row 1 h⟩
    · exact ⟨.tick, (eq_eventWord_of_row 0 h).trans (congrArg (eventWord 0x1) (by simp [BitVec.of_length_zero]))⟩
    · exact ⟨.edge _, eq_eventWord_of_row 1 h⟩
    · exact ⟨.pin _, eq_eventWord_of_row 1 h⟩
    · exact ⟨.setTop _, eq_eventWord_of_row 16 h⟩
    · exact ⟨.clk, (eq_eventWord_of_row 0 h).trans (congrArg (eventWord 0x5) (by simp [BitVec.of_length_zero]))⟩
    · exact ⟨.select _, eq_eventWord_of_row 8 h⟩

/-- Settles O10: the decoder evaluated on the words of the vectors. -/
theorem specWordsDecode : Obligations.SpecWordsDecode := by
  unfold Obligations.SpecWordsDecode
  decide

end Sys2Proof

/-! What one event does to the tone (R49, R50, R77): accepted ticks, performed edges, and events that are neither. -/

namespace Sys2Proof.Machine

theorem isReset_iff {i : Instr} : i.isReset = true ↔ ∃ l, i = .reset l := by
  cases i <;> simp [Instr.isReset]

/-- An accepted tick finds the gate enabled and does what `TICK` does; a matching `CLK` clears CNT besides. -/
theorem effect_of_acceptsTick {i : Instr} {s : State} (h : acceptsTick i s = true) :
    s.gate = .enabled ∧
      ∃ c, effect i s = ((s.writeCnt c).outWrite (s.romRead s.phase)).writePhase (s.phase + 1) := by
  cases i with
  | tick =>
    have hg : s.gate = .enabled := of_decide_eq_true h
    exact ⟨hg, s.cnt, State.doTick_of_enabled hg⟩
  | clk =>
    obtain ⟨hg, hc⟩ : s.gate = .enabled ∧ s.cnt = s.top := by simpa [acceptsTick] using h
    exact ⟨hg, 0, State.doClk_of_match hg hc⟩
  | reset _ | edge _ | pin _ | setTop _ | select _ => cases h

/-- A performed edge is the gate handler at its level, on a state in which at most EN_PREV has moved. -/
theorem effect_of_performsEdge {i : Instr} {s : State} {l : Level} (h : performsEdge i s l = true) :
    ∃ e, effect i s = (s.writeEnPrev e).doEdge l := by
  cases i with
  | edge k =>
    obtain rfl : k = l := of_decide_eq_true h
    exact ⟨s.enPrev, rfl⟩
  | pin k =>
    obtain ⟨rfl, hk⟩ : k = l ∧ k ≠ s.enPrev := by simpa [performsEdge] using h
    exact ⟨k, State.doPin_of_change hk⟩
  | reset _ | tick | setTop _ | clk | select _ => cases h

/-- An event that is no accepted tick, no `RESET` and performs no disable edge leaves PHASE and OUT as they were, and
can only enable the gate. -/
theorem effect_holds_tone {i : Instr} {s : State} (ht : acceptsTick i s = false) (hr : i.isReset = false)
    (he : performsEdge i s (inactiveOf s.cfg) = false) :
    (effect i s).phase = s.phase ∧ (effect i s).out = s.out ∧
      (s.gate = .enabled → (effect i s).gate = .enabled) := by
  cases i with
  | reset l => cases hr
  | tick =>
    have e : s.doTick = s := by
      obtain ⟨hg, -⟩ | ⟨-, e⟩ := s.doTick_cases
      · exact absurd hg (of_decide_eq_false ht)
      · exact e
    simp [effect, e]
  | edge l =>
    obtain ⟨-, e⟩ | ⟨hl, -⟩ := s.doEdge_cases l
    · simp [effect, e]
    · exact absurd hl (of_decide_eq_false he)
  | pin l =>
    obtain ⟨-, e⟩ | ⟨-, -, e⟩ | ⟨hc, hl, -⟩ := s.doPin_cases l
    · simp [effect, e]
    · simp [effect, e]
    · simp [performsEdge, hl, hl ▸ hc] at he
  | setTop v => exact ⟨rfl, rfl, id⟩
  | clk =>
    obtain ⟨-, e⟩ | ⟨hg, hc, -⟩ | ⟨-, -, e⟩ := s.doClk_cases
    · simp [effect, e]
    · simp [acceptsTick, hg, hc] at ht
    · simp [effect, e]
  | select p => exact ⟨rfl, rfl, id⟩

/-- Only a performed edge or `RESET` moves the gate (R77). -/
theorem effect_gate {i : Instr} {s : State} (hr : i.isReset = false) (he : ∀ l, performsEdge i s l = false) :
    (effect i s).gate = s.gate := by
  cases i with
  | reset l => cases hr
  | tick => obtain ⟨-, e⟩ | ⟨-, e⟩ := s.doTick_cases <;> simp [effect, e]
  | edge l => exact absurd (he l) (by simp [performsEdge])
  | pin l =>
    obtain rfl : l = s.enPrev := by simpa [performsEdge] using he l
    simp [effect, State.doPin_of_same]
  | setTop v => rfl
  | clk => obtain ⟨-, e⟩ | ⟨-, -, e⟩ | ⟨-, -, e⟩ := s.doClk_cases <;> simp [effect, e]
  | select p => rfl

end Sys2Proof.Machine

/-! R25 and R27 for every step: what every event keeps, a step keeps. -/

namespace Sys2Proof.Machine

/-- A property of states that does not read the list of inputs and that every event keeps is kept by every step. -/
theorem step_keeps {P : State → Prop} (hin : ∀ s is, P s → P (s.writeInputs is))
    (hP : ∀ i s, P s → P (effect i s)) {s t : State} (h : step s = .next t) (hs : P s) : P t := by
  obtain ⟨-, rfl⟩ | ⟨_, rest, _, -, -, e⟩ := step_cases h
  · exact hs
  · exact runEvents_keeps hP e (hin s rest hs)

/-- Settles O27: every event keeps `Quiet` (`Quiet.effect`), and `Quiet` does not read the inputs. -/
theorem stepKeepsQuiet : Obligations.StepKeepsQuiet :=
  fun _ _ hs h => step_keeps (fun _ _ h => h) (fun i _ h => h.effect i) h hs

/-- Settles O29: no event writes the configuration (`effect_cfg`), and a ROM read reads nothing else. -/
theorem romReadsAreStable : Obligations.RomReadsAreStable := by
  intro s t h
  have hcfg : t.cfg = s.cfg :=
    step_keeps (P := fun u => u.cfg = s.cfg) (fun _ _ hu => hu) (fun i u hu => (effect_cfg i u).trans hu) h rfl
  exact ⟨hcfg, fun a => by rw [State.romRead, hcfg, State.romRead]⟩

end Sys2Proof.Machine

/-! R49 and R77: the output mux and the owners of the state elements. -/

namespace Sys2Proof.Machine

/-- A performed disable edge forces OUT to zero. -/
theorem effect_out_of_disableEdge {i : Instr} {s : State} (h : performsEdge i s (inactiveOf s.cfg) = true) :
    (effect i s).out = 0x00 := by
  obtain ⟨e, he⟩ := effect_of_performsEdge h
  rw [he]
  exact congrArg State.out (State.doEdge_of_inactive (s := s.writeEnPrev e) (inactiveOf_ne s.cfg))

/-- Settles O31: an accepted tick loads the sample, `RESET` and the disable edge load zero, every other event holds. -/
theorem outputMuxHasThreeWays : Obligations.OutputMuxHasThreeWays := by
  intro i s
  refine ⟨effect i s, exec_eq_effect i s, fun ht => ?_, fun h => ?_, fun ht hr he => ?_⟩
  · obtain ⟨-, c, e⟩ := effect_of_acceptsTick ht
    rw [e]
    rfl
  · obtain hr | he := h
    · obtain ⟨l, rfl⟩ := isReset_iff.mp hr
      rfl
    · exact effect_out_of_disableEdge he
  · exact (effect_holds_tone ht hr he).2.1

/-! What each operation can write, as one update of the state it finds. -/

theorem State.doTick_frame (s : State) : ∃ p o, s.doTick = { s with phase := p, out := o } := by
  obtain ⟨-, e⟩ | ⟨-, e⟩ := s.doTick_cases
  · exact ⟨_, _, e⟩
  · exact ⟨s.phase, s.out, e⟩

theorem State.doEdge_frame (s : State) (l : Level) :
    ∃ g p o, s.doEdge l = { s with gate := g, phase := p, out := o } := by
  obtain ⟨-, e⟩ | ⟨-, e⟩ := s.doEdge_cases l
  · exact ⟨.enabled, s.phase, s.out, e⟩
  · exact ⟨_, _, _, e⟩

theorem State.doPin_frame (s : State) (l : Level) :
    ∃ g p o, s.doPin l = { s with enPrev := l, gate := g, phase := p, out := o } := by
  by_cases h : l = s.enPrev
  · exact ⟨s.gate, s.phase, s.out, by rw [State.doPin_of_same h, h]⟩
  · rw [State.doPin_of_change h]
    exact (s.writeEnPrev l).doEdge_frame l

theorem State.doClk_frame (s : State) : ∃ c p o, s.doClk = { s with cnt := c, phase := p, out := o } := by
  obtain ⟨-, e⟩ | ⟨-, -, e⟩ | ⟨-, -, e⟩ := s.doClk_cases
  · exact ⟨s.cnt, s.phase, s.out, e⟩
  · exact ⟨_, _, _, e⟩
  · exact ⟨_, s.phase, s.out, e⟩

/-- R77, what an event other than `RESET` does not own: TOP is written by `SETTOP` and `SELECT`, EN_PREV by `PIN`, CNT
by `CLK`, and the model's own bookkeeping by none. -/
theorem effect_frame {i : Instr} (s : State) (hr : i.isReset = false) :
    ((∀ v, i ≠ .setTop v) → (∀ p, i ≠ .select p) → (effect i s).top = s.top) ∧
      ((∀ l, i ≠ .pin l) → (effect i s).enPrev = s.enPrev) ∧
      (i ≠ .clk → (effect i s).cnt = s.cnt) ∧
      (effect i s).resetSeen = s.resetSeen ∧ (effect i s).inputs = s.inputs := by
  cases i with
  | reset l => cases hr
  | tick =>
    obtain ⟨p, o, e⟩ := s.doTick_frame
    simp [effect, e]
  | edge l =>
    obtain ⟨g, p, o, e⟩ := s.doEdge_frame l
    simp [effect, e]
  | pin l =>
    obtain ⟨g, p, o, e⟩ := s.doPin_frame l
    simp [effect, e]
  | setTop v => simp [effect, State.doSetTop]
  | clk =>
    obtain ⟨c, p, o, e⟩ := s.doClk_frame
    simp [effect, e]
  | select p => simp [effect, State.doSelect, State.doSetTop]

/-- No event writes the list of inputs. -/
theorem effect_inputs (i : Instr) (s : State) : (effect i s).inputs = s.inputs := by
  cases hr : i.isReset with
  | false => exact (effect_frame s hr).2.2.2.2
  | true =>
    obtain ⟨l, rfl⟩ := isReset_iff.mp hr
    rfl

/-- Settles O30: an element that an event moves is owned by it, since the event would otherwise hold it
(`effect_holds_tone`, `effect_gate`, `effect_frame`). -/
theorem stateHasItsOwners : Obligations.StateHasItsOwners := by
  intro i s t h
  rw [exec_eq_effect] at h
  obtain rfl := Host.Outcome.next.inj h
  refine ⟨fun hm => ?_, fun hm => ?_, fun hm => ?_, fun hm => ?_, fun hm => ?_, effect_cfg i s, effect_inputs i s⟩
  all_goals by_contra! hown
  · obtain ⟨hr, ht, he⟩ := hown
    obtain ⟨hp, ho, -⟩ :=
      effect_holds_tone (Bool.eq_false_iff.mpr ht) (Bool.eq_false_iff.mpr hr) (Bool.eq_false_iff.mpr he)
    exact hm.elim (absurd ho) (absurd hp)
  · obtain ⟨hr, he⟩ := hown
    exact hm (effect_gate (Bool.eq_false_iff.mpr hr) fun l => Bool.eq_false_iff.mpr (he l))
  · obtain ⟨hr, hv, hp⟩ := hown
    exact hm ((effect_frame s (Bool.eq_false_iff.mpr hr)).1 hv hp)
  · obtain ⟨hr, hl⟩ := hown
    exact hm ((effect_frame s (Bool.eq_false_iff.mpr hr)).2.1 hl)
  · obtain ⟨hr, hc⟩ := hown
    exact hm ((effect_frame s (Bool.eq_false_iff.mpr hr)).2.2.1 hc)

end Sys2Proof.Machine

/-! R50: the phase law of the accepted ticks. -/

namespace Sys2Proof.Machine

theorem keepsToneAlong_cons (i : Instr) (is : List Instr) (s : State) :
    keepsToneAlong (i :: is) s = (keepsTone i s && keepsToneAlong is (effect i s)) := by
  rw [keepsToneAlong, exec_eq_effect]

theorem ticksAlong_cons (i : Instr) (is : List Instr) (s : State) :
    ticksAlong (i :: is) s = (if acceptsTick i s = true then 1 else 0) + ticksAlong is (effect i s) := by
  rw [ticksAlong, exec_eq_effect]

/-- OUT holds the sample before PHASE, as it does after every tick (R48). -/
def ShowsLastSample (s : State) : Prop := s.out = s.romRead (s.phase - 1)

/-- One event that keeps the tone: the gate stays enabled and PHASE moves by one exactly when the event is an accepted
tick, which leaves its sample in OUT. -/
theorem effect_of_keepsTone {i : Instr} {s : State} (hg : s.gate = .enabled) (hk : keepsTone i s = true) :
    (effect i s).gate = .enabled ∧
      (effect i s).phase = s.phase + BitVec.ofNat 8 (if acceptsTick i s = true then 1 else 0) ∧
      (acceptsTick i s = true ∨ ShowsLastSample s → ShowsLastSample (effect i s)) := by
  obtain ⟨hr, he⟩ : i.isReset = false ∧ performsEdge i s (inactiveOf s.cfg) = false := by
    simpa [keepsTone] using hk
  by_cases ht : acceptsTick i s = true
  · obtain ⟨-, c, e⟩ := effect_of_acceptsTick ht
    rw [e, if_pos ht]
    refine ⟨hg, rfl, fun _ => ?_⟩
    simp [ShowsLastSample, State.romRead]
  · obtain ⟨hp, ho, hgate⟩ := effect_holds_tone (Bool.eq_false_iff.mpr ht) hr he
    rw [if_neg ht]
    refine ⟨hgate hg, by simp [hp], fun h => ?_⟩
    rw [ShowsLastSample, hp, ho, State.romRead, effect_cfg]
    exact h.resolve_left ht

/-- R50 with any number of ticks: PHASE advances by their number, and OUT shows the sample before it from the first tick
on. -/
theorem runEvents_of_keepsToneAlong (is : List Instr) :
    ∀ s : State, s.gate = .enabled → keepsToneAlong is s = true →
      ∃ t, runEvents is s = .next t ∧ t.gate = .enabled ∧ t.cfg = s.cfg ∧
        t.phase = s.phase + BitVec.ofNat 8 (ticksAlong is s) ∧
        (1 ≤ ticksAlong is s ∨ ShowsLastSample s → ShowsLastSample t) := by
  induction is with
  | nil =>
    intro s hg _
    exact ⟨s, rfl, hg, rfl, by simp [ticksAlong], fun h => h.resolve_left (by simp [ticksAlong])⟩
  | cons i is ih =>
    intro s hg hk
    rw [keepsToneAlong_cons, Bool.and_eq_true] at hk
    obtain ⟨hg', hp, hlast⟩ := effect_of_keepsTone hg hk.1
    obtain ⟨t, e, hgt, hcfg, hpt, hlt⟩ := ih (effect i s) hg' hk.2
    refine ⟨t, (runEvents_cons i is s).trans e, hgt, hcfg.trans (effect_cfg i s), ?_, fun h => hlt ?_⟩
    · rw [hpt, hp, ticksAlong_cons, BitVec.ofNat_add, BitVec.add_assoc]
    · rw [ticksAlong_cons] at h
      by_cases ht : acceptsTick i s = true
      · exact .inr (hlast (.inl ht))
      · rw [if_neg ht, Nat.zero_add] at h
        exact h.imp_right fun hs => hlast (.inr hs)

/-- Settles O32: `runEvents_of_keepsToneAlong` with at least one tick. -/
theorem phaseLawOfAcceptedTicks : Obligations.PhaseLawOfAcceptedTicks := by
  intro is s hg hk hticks
  obtain ⟨t, e, hgt, hcfg, hp, hlast⟩ := runEvents_of_keepsToneAlong is s hg hk
  have hout : t.out = t.romRead (t.phase - 1) := hlast (.inl hticks)
  rw [State.romRead, hcfg, hp] at hout
  exact ⟨t, e, hgt, hp, hout⟩

end Sys2Proof.Machine

/-! R7 and R47: a machine of the other polarity, given every level the other way. -/

namespace Sys2Proof.Machine

theorem not_level_inj {a b : Level} : ~~~a = ~~~b ↔ a = b := by
  revert a b
  decide

/-- The gate handler of the other polarity takes the same arm. -/
theorem doEdge_flipPolarity (s : State) (l : Level) : (flipPolarity s).doEdge (~~~l) = flipPolarity (s.doEdge l) := by
  by_cases h : l = s.cfg.activeLevel
  · rw [State.doEdge_of_active h]
    exact State.doEdge_of_active (not_level_inj.mpr h)
  · rw [State.doEdge_of_inactive h]
    exact State.doEdge_of_inactive (mt not_level_inj.mp h)

theorem doPin_flipPolarity (s : State) (l : Level) : (flipPolarity s).doPin (~~~l) = flipPolarity (s.doPin l) := by
  by_cases h : l = s.enPrev
  · rw [State.doPin_of_same h]
    exact State.doPin_of_same (not_level_inj.mpr h)
  · rw [State.doPin_of_change h, ← doEdge_flipPolarity]
    exact State.doPin_of_change (mt not_level_inj.mp h)

theorem doTick_flipPolarity (s : State) : (flipPolarity s).doTick = flipPolarity s.doTick := by
  obtain ⟨hg, e⟩ | ⟨hg, e⟩ := s.doTick_cases <;> rw [e]
  · exact State.doTick_of_enabled hg
  · exact State.doTick_of_disabled hg

theorem doClk_flipPolarity (s : State) : (flipPolarity s).doClk = flipPolarity s.doClk := by
  obtain ⟨hg, e⟩ | ⟨hg, hc, e⟩ | ⟨hg, hc, e⟩ := s.doClk_cases <;> rw [e]
  · exact State.doClk_of_disabled hg
  · exact State.doClk_of_match hg hc
  · exact State.doClk_of_count hg hc

/-- One event other than `RESET` commutes with the change of polarity. -/
theorem effect_flipPolarity {i : Instr} (s : State) (hr : i.isReset = false) :
    effect (flipLevel i) (flipPolarity s) = flipPolarity (effect i s) := by
  cases i with
  | reset l => cases hr
  | tick => exact doTick_flipPolarity s
  | edge l => exact doEdge_flipPolarity s l
  | pin l => exact doPin_flipPolarity s l
  | setTop v => rfl
  | clk => exact doClk_flipPolarity s
  | select p => rfl

theorem runEvents_flipPolarity (is : List Instr) :
    ∀ s t : State, (∀ i ∈ is, i.isReset = false) → runEvents is s = .next t →
      runEvents (is.map flipLevel) (flipPolarity s) = .next (flipPolarity t) := by
  induction is with
  | nil =>
    intro s t _ e
    cases e
    rfl
  | cons i is ih =>
    intro s t hr e
    rw [List.forall_mem_cons] at hr
    rw [runEvents_cons] at e
    rw [List.map_cons, runEvents_cons, effect_flipPolarity s hr.1]
    exact ih (effect i s) t hr.2 e

/-- Settles O40: `effect_flipPolarity` along the sequence; `RESET` loads the same values in both machines. -/
theorem polarityOnlySwapsLevels : Obligations.PolarityOnlySwapsLevels :=
  ⟨runEvents_flipPolarity, fun _ _ =>
    ⟨_, _, exec_eq_effect _ _, exec_eq_effect _ _, rfl, rfl, rfl, rfl, rfl, rfl⟩⟩

end Sys2Proof.Machine

/-! R21 and R54 item 5: the core neither reads TOP and CNT nor the selector's parameters, but for `CLK`. -/

namespace Sys2Proof.Machine

theorem CoreAgrees.romRead {s t : State} (h : CoreAgrees s t) (a : Byte) : s.romRead a = t.romRead a := by
  obtain ⟨-, -, -, -, -, hrom⟩ := h
  rw [State.romRead, State.romRead, hrom]

theorem CoreAgrees.doTick {s t : State} (h : CoreAgrees s t) : CoreAgrees s.doTick t.doTick := by
  have hread := h.romRead s.phase
  obtain ⟨hp, ho, hg, he, ha, hrom⟩ := h
  obtain ⟨hs, e⟩ | ⟨hs, e⟩ := s.doTick_cases <;> rw [e]
  · rw [State.doTick_of_enabled (hg ▸ hs)]
    exact ⟨congrArg (· + 1) hp, hp ▸ hread, hg, he, ha, hrom⟩
  · rw [State.doTick_of_disabled (hg ▸ hs)]
    exact ⟨hp, ho, hg, he, ha, hrom⟩

theorem CoreAgrees.doEdge {s t : State} (h : CoreAgrees s t) (l : Level) : CoreAgrees (s.doEdge l) (t.doEdge l) := by
  obtain ⟨hp, ho, -, he, ha, hrom⟩ := h
  by_cases hl : l = s.cfg.activeLevel
  · rw [State.doEdge_of_active hl, State.doEdge_of_active (ha ▸ hl)]
    exact ⟨hp, ho, rfl, he, ha, hrom⟩
  · rw [State.doEdge_of_inactive hl, State.doEdge_of_inactive (ha ▸ hl)]
    exact ⟨rfl, rfl, rfl, he, ha, hrom⟩

theorem CoreAgrees.doPin {s t : State} (h : CoreAgrees s t) (l : Level) : CoreAgrees (s.doPin l) (t.doPin l) := by
  obtain ⟨hp, ho, hg, he, ha, hrom⟩ := id h
  by_cases hl : l = s.enPrev
  · rw [State.doPin_of_same hl, State.doPin_of_same (he ▸ hl)]
    exact h
  · rw [State.doPin_of_change hl, State.doPin_of_change (he ▸ hl)]
    have hw : CoreAgrees (s.writeEnPrev l) (t.writeEnPrev l) := ⟨hp, ho, hg, rfl, ha, hrom⟩
    exact hw.doEdge l

/-- One event other than `CLK` keeps the agreement. -/
theorem CoreAgrees.effect {s t : State} (h : CoreAgrees s t) {i : Instr} (hi : i ≠ .clk) :
    CoreAgrees (effect i s) (effect i t) := by
  cases i with
  | reset l =>
    obtain ⟨-, -, -, -, ha, hrom⟩ := h
    exact ⟨rfl, rfl, rfl, rfl, ha, hrom⟩
  | tick => exact h.doTick
  | edge l => exact h.doEdge l
  | pin l => exact h.doPin l
  | setTop v => exact h
  | clk => exact absurd rfl hi
  | select p => exact h

/-- Settles O41: `CoreAgrees.effect` along the sequence. -/
theorem coreIgnoresTimerAndSelector : Obligations.CoreIgnoresTimerAndSelector := by
  intro is
  induction is with
  | nil =>
    intro s t s' t' h _ es et
    cases es
    cases et
    exact h
  | cons i is ih =>
    intro s t s' t' h hclk es et
    rw [List.forall_mem_cons] at hclk
    rw [runEvents_cons] at es et
    exact ih _ _ _ _ (h.effect hclk.1) hclk.2 es et

end Sys2Proof.Machine

/-! A step on each kind of input (R30, R41, R83). -/

namespace Sys2Proof.Machine

theorem step_of_inputs {s : State} {i : Input} {rest : List Input} (h : s.inputs = i :: rest) :
    step s = takeInput i (s.writeInputs rest) := by
  rw [step, h]

theorem takeEvents_of_begun {is : List Instr} {s : State} (h : s.resetSeen = true ∨ startsWithReset is = true) :
    takeEvents is s = runEvents is s := by
  rw [takeEvents, if_pos (Bool.or_eq_true_iff.mpr h)]

/-- R83: before the first `RESET` a sequence that begins with another event is refused. -/
theorem takeEvents_before_reset {is : List Instr} {s : State} (h : s.resetSeen = false)
    (hr : startsWithReset is = false) : takeEvents is s = .refused .eventBeforeReset := by
  rw [takeEvents, h, hr]
  rfl

theorem step_event_word {s : State} {b0 b1 b2 : Byte} {rest : List Input} {i : Instr}
    (h : s.inputs = .word b0 b1 b2 :: rest) (hd : decodeStored b0 b1 b2 = .event i) :
    step s = takeEvents [i] (s.writeInputs rest) := by
  rw [step_of_inputs h, takeInput, takeWord, hd]

theorem step_invalid_word {s : State} {b0 b1 b2 : Byte} {rest : List Input} {e : DecodeError}
    (h : s.inputs = .word b0 b1 b2 :: rest) (hd : decodeStored b0 b1 b2 = .invalid e) :
    step s = .refused (refusalOf e) := by
  rw [step_of_inputs h, takeInput, takeWord, hd]

theorem step_cycleA {s : State} {p : PortsA} {rest : List Input} (h : s.inputs = .cycleA p :: rest) :
    step s = takeEvents (eventsOfCycleA p) (s.writeInputs rest) := step_of_inputs h

theorem step_cycleB {s : State} {p : PortsB} {rest : List Input} (h : s.inputs = .cycleB p :: rest) :
    step s = takeEvents (eventsOfCycleB p) (s.writeInputs rest) := step_of_inputs h

/-- R41: `rst` performs `RESET` alone. -/
theorem eventsOfCycleA_of_rst {p : PortsA} (h : p.rst = 1) : eventsOfCycleA p = [.reset p.txEn] := if_pos h

theorem eventsOfCycleB_of_rst {p : PortsB} (h : p.rst = 1) : eventsOfCycleB p = [.reset p.txEn] := if_pos h

theorem runEvents_singleton (i : Instr) (s : State) : runEvents [i] s = exec i s := by
  rw [runEvents_cons, runEvents_nil, exec_eq_effect]

/-- Settles O17: the one event of the word is taken, after a reset or as one. -/
theorem stepRunsDecodedEvent : Obligations.StepRunsDecodedEvent := by
  intro s b0 b1 b2 rest i hin hd hbegun
  have hstarts : (s.writeInputs rest).resetSeen = true ∨ startsWithReset [i] = true :=
    hbegun.imp_right fun ⟨l, hl⟩ => by rw [hl]; rfl
  rw [step_event_word hin hd, takeEvents_of_begun hstarts]
  exact runEvents_singleton i _

theorem step_cycleA_of_not_rst {s : State} {p : PortsA} {rest : List Input} (hseen : s.resetSeen = true)
    (hin : s.inputs = .cycleA p :: rest) (h : p.rst ≠ 1) :
    step s = runEvents (.pin p.txEn :: (if p.tick = 1 then [.tick] else [])) (s.writeInputs rest) := by
  rw [step_cycleA hin, takeEvents_of_begun (s := s.writeInputs rest) (.inl hseen), eventsOfCycleA_of_not_rst h]

theorem step_cycleB_of_not_rst {s : State} {p : PortsB} {rest : List Input} (hseen : s.resetSeen = true)
    (hin : s.inputs = .cycleB p :: rest) (h : p.rst ≠ 1) :
    step s = runEvents [.pin p.txEn, .select p.selIn, .clk] (s.writeInputs rest) := by
  rw [step_cycleB hin, takeEvents_of_begun (s := s.writeInputs rest) (.inl hseen), eventsOfCycleB_of_not_rst h]

/-- Settles O18: after a reset a cycle's events run, and R41 lists them. -/
theorem stepRunsClockCycle : Obligations.StepRunsClockCycle := by
  intro s rest hseen
  refine ⟨fun p hin => ⟨fun h => ?_, fun h ht => ?_, fun h ht => ?_⟩, fun p hin => ⟨fun h => ?_, fun h => ?_⟩⟩
  · rw [step_cycleA hin, eventsOfCycleA_of_rst h]
    exact takeEvents_of_begun (.inl hseen)
  · rw [step_cycleA_of_not_rst hseen hin (by simp [h]), if_pos ht]
    rfl
  · rw [step_cycleA_of_not_rst hseen hin (by simp [h]), if_neg (by simp [ht])]
    rfl
  · rw [step_cycleB hin, eventsOfCycleB_of_rst h]
    exact takeEvents_of_begun (.inl hseen)
  · exact step_cycleB_of_not_rst hseen hin (by simp [h])

/-- A step whose input performs `RESET` alone: the next state is `doReset`'s, whatever happened before. -/
theorem step_reset {s : State} {l : Level} {rest : List Input}
    (h : step s = takeEvents [.reset l] (s.writeInputs rest)) :
    ∃ t, step s = .next t ∧ exec (.reset l) { s with inputs := rest } = .next t ∧
      t.resetSeen = true ∧ t.enPrev = l ∧ t.inputs = rest := by
  refine ⟨(s.writeInputs rest).doReset l, ?_, rfl, rfl, rfl, rfl⟩
  rw [h, takeEvents_of_begun (.inr rfl)]
  rfl

/-- Settles O19: R83's refusal for events and cycles that begin with another event, `step_reset` for the others. -/
theorem runBeginsWithReset : Obligations.RunBeginsWithReset := by
  intro s rest hseen
  have hrefused {is : List Instr} (hr : startsWithReset is = false) :
      takeEvents is (s.writeInputs rest) = .refused .eventBeforeReset := takeEvents_before_reset hseen hr
  refine ⟨fun b0 b1 b2 i hin hd hi => ?_, fun p hin h => ?_, fun p hin h => ?_, fun l hin => ?_, fun p hin h => ?_,
    fun p hin h => ?_⟩
  · have hr : i.isReset = false := Bool.eq_false_iff.mpr fun h => (isReset_iff.mp h).elim hi
    rw [step_event_word hin hd, hrefused (is := [i]) hr]
  · rw [step_cycleA hin, eventsOfCycleA_of_not_rst (by simp [h]), hrefused rfl]
  · rw [step_cycleB hin, eventsOfCycleB_of_not_rst (by simp [h]), hrefused rfl]
  · exact step_reset (step_event_word hin (decodeStored_eq_event_iff.mpr rfl))
  · exact step_reset (eventsOfCycleA_of_rst h ▸ step_cycleA hin)
  · exact step_reset (eventsOfCycleB_of_rst h ▸ step_cycleB hin)

/-- Settles O20: the first case of `step`. -/
theorem nothingPresentedNothingChanges : Obligations.NothingPresentedNothingChanges := by
  intro s h
  rw [step, h]

/-- The stored bytes of an event meet none of the clauses on reserved words (R38, R42). -/
theorem storedInput_not_reserved {i : Instr} {b0 b1 b2 : Byte} (h : storedInput i = .word b0 b1 b2) :
    ¬(b2.toNat ≥ 7 ∨ (b2 = 0 ∨ b2 = 2 ∨ b2 = 3) ∧ (b1 ≠ 0 ∨ b0.toNat ≥ 2) ∨
      (b2 = 1 ∨ b2 = 5) ∧ (b1 ≠ 0 ∨ b0 ≠ 0) ∨ b2 = 6 ∧ b1 ≠ 0) := by
  obtain ⟨rfl, rfl, rfl⟩ := Input.word.inj h
  clear h
  cases i with
  | reset l => revert l; decide
  | tick => decide
  | edge l => revert l; decide
  | pin l => revert l; decide
  | setTop v =>
    have h2 : storedByte2 (encode (.setTop v)) = 4 := congrArg (BitVec.setWidth 8) (opField_eventWord 0x4 v)
    simp [h2]
  | clk => decide
  | select p => revert p; decide

/-- Settles O14: a word that decodes is an event's (`decodeStored_eq_event_iff`), and no event's bytes are reserved; so
the step meets an invalid word. -/
theorem reservedWordsAreRefused : Obligations.ReservedWordsAreRefused := by
  intro s b0 b1 b2 rest hin hres
  cases hd : decodeStored b0 b1 b2 with
  | event i => exact absurd hres (storedInput_not_reserved (decodeStored_eq_event_iff.mp hd))
  | invalid e => exact ⟨⟨_, step_invalid_word hin hd⟩, fun i h => nomatch h⟩

/-! R6 and R34: stepping over a loaded stimulus. -/

theorem State.doTick_writeInputs (s : State) (is : List Input) :
    (s.writeInputs is).doTick = s.doTick.writeInputs is := by
  obtain ⟨hg, e⟩ | ⟨hg, e⟩ := s.doTick_cases <;> rw [e]
  · exact State.doTick_of_enabled hg
  · exact State.doTick_of_disabled hg

theorem State.doEdge_writeInputs (s : State) (l : Level) (is : List Input) :
    (s.writeInputs is).doEdge l = (s.doEdge l).writeInputs is := by
  by_cases h : l = s.cfg.activeLevel
  · rw [State.doEdge_of_active h]
    exact State.doEdge_of_active h
  · rw [State.doEdge_of_inactive h]
    exact State.doEdge_of_inactive h

theorem State.doPin_writeInputs (s : State) (l : Level) (is : List Input) :
    (s.writeInputs is).doPin l = (s.doPin l).writeInputs is := by
  by_cases h : l = s.enPrev
  · rw [State.doPin_of_same h]
    exact State.doPin_of_same h
  · rw [State.doPin_of_change h, ← State.doEdge_writeInputs]
    exact State.doPin_of_change h

theorem State.doClk_writeInputs (s : State) (is : List Input) :
    (s.writeInputs is).doClk = s.doClk.writeInputs is := by
  obtain ⟨hg, e⟩ | ⟨hg, hc, e⟩ | ⟨hg, hc, e⟩ := s.doClk_cases <;> rw [e]
  · exact State.doClk_of_disabled hg
  · exact State.doClk_of_match hg hc
  · exact State.doClk_of_count hg hc

/-- The meaning of an event neither reads nor writes the list of inputs. -/
theorem effect_writeInputs (i : Instr) (s : State) (is : List Input) :
    effect i (s.writeInputs is) = (effect i s).writeInputs is := by
  cases i with
  | reset l => rfl
  | tick => exact s.doTick_writeInputs is
  | edge l => exact s.doEdge_writeInputs l is
  | pin l => exact s.doPin_writeInputs l is
  | setTop v => rfl
  | clk => exact s.doClk_writeInputs is
  | select p => rfl

/-- A reset noted stays noted, and `RESET` notes it. -/
theorem effect_resetSeen {i : Instr} {s : State} (h : s.resetSeen = true ∨ i.isReset = true) :
    (effect i s).resetSeen = true := by
  cases hr : i.isReset with
  | false =>
    obtain ⟨-, -, -, hseen, -⟩ := effect_frame s hr
    exact hseen.trans (h.resolve_right (by simp [hr]))
  | true =>
    obtain ⟨l, rfl⟩ := isReset_iff.mp hr
    rfl

/-- A step on a stored event runs it and leaves the rest waiting. -/
theorem step_storedInput {i : Instr} {s : State} (rest : List Input) (h : s.resetSeen = true ∨ i.isReset = true) :
    step (s.writeInputs (storedInput i :: rest)) = .next ((effect i s).writeInputs rest) := by
  have hbegun : (s.writeInputs rest).resetSeen = true ∨ startsWithReset [i] = true := h
  calc step (s.writeInputs (storedInput i :: rest))
      = takeEvents [i] (s.writeInputs rest) := step_event_word rfl (decodeStored_eq_event_iff.mpr rfl)
    _ = .next (effect i (s.writeInputs rest)) := by
      rw [takeEvents_of_begun hbegun, runEvents_singleton, exec_eq_effect]
    _ = .next ((effect i s).writeInputs rest) := by rw [effect_writeInputs]

theorem core_run_succ {s t : State} (n : Nat) (h : step s = .next t) :
    Host.Core.run core (n + 1) s = Host.Core.run core n t := by
  have hstep : core.step s = .next t := h
  simp only [Host.Core.run, hstep]

/-- As many steps as events are waiting run them in order and leave none waiting. -/
theorem run_storedInputs (is : List Instr) :
    ∀ s : State, (s.resetSeen = true ∨ startsWithReset is = true) →
      Host.Core.run core is.length (s.writeInputs (is.map storedInput)) = runEvents is (s.writeInputs []) := by
  induction is with
  | nil => exact fun _ _ => rfl
  | cons i is ih =>
    intro s h
    rw [runEvents_cons, effect_writeInputs]
    exact (core_run_succ is.length (step_storedInput _ h)).trans (ih (effect i s) (.inl (effect_resetSeen h)))

/-- Settles O21: loading an idle machine makes the stored events its inputs. -/
theorem loadedStimulusRunsInOrder : Obligations.LoadedStimulusRunsInOrder := by
  intro is s hidle h
  have hs : s.writeInputs [] = s := by rw [State.writeInputs, ← hidle]
  have hload : s.load is = s.writeInputs (is.map storedInput) := by rw [State.load, hidle, List.nil_append]
  rw [hload]
  exact (run_storedInputs is s h).trans (by rw [hs])

end Sys2Proof.Machine

/-! Clock cycles in which gate, selector and timer coincide (R41, R73). -/

namespace Sys2Proof.Machine

/-- A sample that finds the pin gone inactive closes the gate before the events that follow it. -/
theorem runEvents_pin_falls {s : State} (is : List Instr) (h : s.enPrev = s.cfg.activeLevel) :
    runEvents (.pin (inactiveOf s.cfg) :: is) s = runEvents is (s.writeEnPrev (inactiveOf s.cfg)).gateOff := by
  rw [runEvents_cons, effect, State.doPin_of_change (h ▸ inactiveOf_ne s.cfg)]
  exact congrArg (runEvents is) (State.doEdge_of_inactive (s := s.writeEnPrev _) (inactiveOf_ne s.cfg))

/-- Settles O39: `PIN` comes first and closes the gate; the `TICK` or `CLK` after it finds it closed. -/
theorem gateOffBeatsTimerInCycle : Obligations.GateOffBeatsTimerInCycle := by
  intro s rest hseen hprev
  have hfalls (is : List Instr) := runEvents_pin_falls (s := s.writeInputs rest) is hprev
  refine ⟨fun k hin => ?_, fun p hin => ⟨(s.doSelect p).top, s.doSelect_top_toNat p, ?_⟩⟩
  · rw [step_cycleA_of_not_rst hseen hin (by simp)]
    refine (hfalls _).trans ?_
    split <;> rfl
  · rw [step_cycleB_of_not_rst hseen hin (by simp)]
    exact hfalls _

/-- Settles O45: `PIN` at the remembered level does nothing, `SELECT` loads TOP, and the `CLK` compares with it. -/
theorem selectorInForceSameCycle : Obligations.SelectorInForceSameCycle := by
  intro s p rest hseen hg hin
  have hperiod := s.doSelect_top_toNat p
  have hstep : step s = .next ((s.writeInputs rest).doSelect p).doClk := by
    rw [step_cycleB_of_not_rst hseen hin (by simp), runEvents_cons]
    have hsame : effect (.pin s.enPrev) (s.writeInputs rest) = s.writeInputs rest := State.doPin_of_same rfl
    exact congrArg (runEvents [.select p, .clk]) hsame
  rw [hstep]
  refine ⟨fun hc => ?_, fun hc => ⟨(s.doSelect p).top, hperiod, ?_⟩⟩
  · have htop : s.cnt = (s.doSelect p).top := BitVec.eq_of_toNat_eq (hc.trans hperiod.symm)
    rw [State.doClk_of_match (s := (s.writeInputs rest).doSelect p) hg htop, htop]
    rfl
  · have htop : s.cnt ≠ (s.doSelect p).top := fun h => hc ((congrArg BitVec.toNat h).trans hperiod)
    exact congrArg Host.Outcome.next (State.doClk_of_count (s := (s.writeInputs rest).doSelect p) hg htop)

end Sys2Proof.Machine

/-! Whole next states of single events and of pairs of them. -/

namespace Sys2Proof.Machine

theorem runEvents_pair (i j : Instr) (s : State) : runEvents [i, j] s = .next (effect j (effect i s)) := by
  rw [runEvents_cons, runEvents_cons, runEvents_nil]

/-- Settles O1: `doReset_eq`, the base word of `RESET` with the level added, and R41's rule on `rst`. -/
theorem resetLoadsEveryElement : Obligations.ResetLoadsEveryElement :=
  fun l s => ⟨congrArg Host.Outcome.next (s.doReset_eq l), eventWord_level 0x0 l, fun _ => eventsOfCycleA_of_rst rfl,
    fun _ => eventsOfCycleB_of_rst rfl⟩

/-- Settles O2: the two arms are the laws of `doTick`; in composition A the tick follows the gate. -/
theorem tickWritesSampleThenAdvances : Obligations.TickWritesSampleThenAdvances := by
  intro s
  refine ⟨fun hg => ?_, fun hg => ?_, rfl, fun l => ?_⟩
  · exact congrArg Host.Outcome.next (State.doTick_of_enabled hg)
  · exact congrArg Host.Outcome.next (State.doTick_of_disabled hg)
  · rw [eventsOfCycleA_of_not_rst (by simp)]
    rfl

/-- Settles O5: the `CLK` after `SETTOP` finds the new TOP, so the laws of `doClk` compare with it. -/
theorem settopTakesEffectAtOnce : Obligations.SettopTakesEffectAtOnce := by
  intro v s
  refine ⟨rfl, ?_, fun hg hc => ?_, fun hg hc => ?_⟩
  · rw [encode, eventWord_eq_add]
    rfl
  · rw [runEvents_pair]
    exact congrArg Host.Outcome.next (State.doClk_of_match (s := s.writeTop v) hg hc)
  · rw [runEvents_pair]
    exact congrArg Host.Outcome.next (State.doClk_of_count (s := s.writeTop v) hg hc)

/-- Settles O7: `doSelect` writes TOP with the masked code's period. -/
theorem selectLoadsPeriod : Obligations.SelectLoadsPeriod := fun _ _ => rfl

/-- Settles O16: the equations of `expand`. -/
theorem pseudoOperationsExpand : Obligations.PseudoOperationsExpand :=
  fun _ _ => ⟨rfl, rfl, rfl, rfl, rfl, rfl, rfl⟩

theorem State.countEn_of_enabled {s : State} (h : s.gate = .enabled) : s.countEn = 1 := congrArg gateCode h

/-- Settles O23: R17's coding of the gate. -/
theorem pinsShowOutAndGate : Obligations.PinsShowOutAndGate :=
  fun s => ⟨s.dacOut_eq_out, State.countEn_of_enabled, State.countEn_of_disabled⟩

/-- R9, R46 and R63 of a documented table. -/
theorem BoundaryData.documented_iff {b : BoundaryData} :
    b.documented = true ↔
      b.selTable.length = 38 ∧ (∀ e ∈ b.selTable, e.1.toNat < 64) ∧ b.selTable.lookup 0x3F = some 670 := by
  simp [BoundaryData.documented, BitVec.lt_def]

/-- Settles O24: the fields of `State.reset`; its boundary parameters are documented ones. -/
theorem machineRightAfterReset : Obligations.MachineRightAfterReset := by
  have hdoc : State.reset.cfg.boundary.documented = true := Config.openBoundary.documented
  obtain ⟨hlength, hcodes, hlookup⟩ := BoundaryData.documented_iff.mp hdoc
  exact ⟨rfl, rfl, rfl, rfl, rfl, rfl, rfl, rfl, rfl, rfl, hlength, hcodes, hlookup, hdoc, rfl⟩

/-- Settles O26: PHASE and OUT are zero in `State.reset`. -/
theorem quietAtReset : Obligations.QuietAtReset := fun _ => ⟨rfl, rfl⟩

/-- Settles O51: a clock that is an accepted tick is one of an enabled gate with CNT at TOP, and R60's match is `TICK`
with CNT cleared. -/
theorem referenceTimerMeetsContract : Obligations.ReferenceTimerMeetsContract := by
  intro s
  refine ⟨fun ht => ?_, fun hg => congrArg Host.Outcome.next (State.doClk_of_disabled hg)⟩
  obtain ⟨hg, hc⟩ : s.gate = .enabled ∧ s.cnt = s.top := by simpa [acceptsTick] using ht
  have htick : (s.writeCnt 0).doTick = _ := State.doTick_of_enabled (s := s.writeCnt 0) hg
  exact ⟨decide_eq_true hg, congrArg Host.Outcome.next ((State.doClk_of_match hg hc).trans htick.symm)⟩

/-! The gate with the tick (R54, R73, R88). -/

theorem State.doTick_gateOff (s : State) : s.doTick.gateOff = s.gateOff := by
  obtain ⟨p, o, e⟩ := s.doTick_frame
  rw [e]
  rfl

/-- A disable edge after a tick: the tick leaves no trace (R73). -/
theorem State.doTick_then_inactive (s : State) : s.doTick.doEdge (inactiveOf s.cfg) = s.gateOff := by
  have hne : inactiveOf s.cfg ≠ s.doTick.cfg.activeLevel := (effect_cfg .tick s).symm ▸ inactiveOf_ne s.cfg
  rw [State.doEdge_of_inactive hne, State.doTick_gateOff]

theorem State.doTick_then_active (s : State) : s.doTick.doEdge s.cfg.activeLevel = s.doTick.startCounting :=
  State.doEdge_of_active (congrArg Config.activeLevel (effect_cfg .tick s).symm)

theorem State.doTick_gate (s : State) : s.doTick.gate = s.gate := by
  obtain ⟨p, o, e⟩ := s.doTick_frame
  rw [e]

/-- Settles O38: the disable arm clears what a tick writes and stops what follows it; the enable arm does nothing to an
enabled gate, and from a disabled one only the tick after it is accepted. -/
theorem coincidentGateAndTick : Obligations.CoincidentGateAndTick := by
  intro s
  simp only [runEvents_pair, effect]
  refine ⟨?_, ?_, fun hg => ?_, fun hg => ⟨?_, ?_⟩⟩
  · have hoff : s.doEdge (1 - s.cfg.activeLevel) = s.gateOff := State.doEdge_of_inactive (inactiveOf_ne s.cfg)
    rw [hoff, State.doTick_of_disabled rfl]
    rfl
  · exact congrArg Host.Outcome.next s.doTick_then_inactive
  · rw [State.doTick_then_active, State.startCounting_of_enabled (s.doTick_gate.trans hg), State.doEdge_of_active rfl,
      State.startCounting_of_enabled hg]
  · rw [State.doEdge_of_active rfl]
    exact congrArg Host.Outcome.next (State.doTick_of_enabled s.startCounting_gate)
  · rw [State.doTick_then_active, State.doTick_of_disabled hg]
    rfl

/-- Settles O36: from a quiet disabled state the gate-on leaves OUT at zero, the tick shows the sample at index 0, and
the disable arm forces zero. -/
theorem onsetAndReleaseSteps : Obligations.OnsetAndReleaseSteps := by
  intro s hq hg hrom
  obtain ⟨hp, ho⟩ := hq hg
  have hon : s.doEdge s.cfg.activeLevel = s.startCounting := State.doEdge_of_active rfl
  have htone := State.doTick_of_enabled s.startCounting_gate
  refine ⟨_, _, _, congrArg Host.Outcome.next hon, ho, congrArg Host.Outcome.next htone, ?_,
    congrArg Host.Outcome.next (htone ▸ s.startCounting.doTick_then_inactive), rfl⟩
  rw [State.dacOut_eq_out, State.writePhase_out, State.outWrite_out, State.romRead, State.startCounting_cfg, hrom,
    State.startCounting_phase, hp]
  decide

end Sys2Proof.Machine

/-! Runs of events that each keep a property. -/

namespace Sys2Proof.Machine

/-- A property kept by the events of one sequence holds of the state the sequence leads to. -/
theorem runEvents_keeps_of_mem {P : State → Prop} {is : List Instr} :
    (∀ i ∈ is, ∀ s, P s → P (effect i s)) → ∀ s, P s → ∃ t, runEvents is s = .next t ∧ P t := by
  induction is with
  | nil => exact fun _ s h => ⟨s, rfl, h⟩
  | cons i is ih =>
    intro hP s h
    rw [List.forall_mem_cons] at hP
    rw [runEvents_cons]
    exact ih hP.2 (effect i s) (hP.1 s h)

/-- Settles O37: with the gate disabled a tick and a clock are the identity. -/
theorem disabledGateHoldsStill : Obligations.DisabledGateHoldsStill := by
  intro is s hg his
  have hkeeps : ∀ i ∈ is, ∀ t, t = s → effect i t = s := by
    rintro i hi t rfl
    obtain rfl | rfl := his i hi
    · exact State.doTick_of_disabled hg
    · exact State.doClk_of_disabled hg
  obtain ⟨t, e, rfl⟩ := runEvents_keeps_of_mem hkeeps s rfl
  exact e

/-- R84: the tone is off and the detector remembers the active level. -/
def KeyedSilent (c : Config) (t : State) : Prop :=
  t.cfg = c ∧ t.gate = .disabled ∧ t.phase = 0 ∧ t.out = 0x00 ∧ t.enPrev = c.activeLevel

theorem KeyedSilent.effect {c : Config} {t : State} (h : KeyedSilent c t) {i : Instr}
    (hi : i = .pin c.activeLevel ∨ i = .tick ∨ i = .clk ∨ (∃ v, i = .setTop v) ∨ ∃ p, i = .select p) :
    KeyedSilent c (effect i t) := by
  obtain ⟨-, hg, -, -, he⟩ := id h
  obtain rfl | rfl | rfl | ⟨v, rfl⟩ | ⟨p, rfl⟩ := hi
  · rwa [Machine.effect, State.doPin_of_same he.symm]
  · rwa [Machine.effect, State.doTick_of_disabled hg]
  · rwa [Machine.effect, State.doClk_of_disabled hg]
  · exact h
  · exact h

/-- Re-keying: the inactive sample finds nothing to clear, and the active one after it is an edge (R52). -/
theorem KeyedSilent.rekey {c : Config} {t : State} (h : KeyedSilent c t) :
    runEvents [.pin (inactiveOf c), .pin c.activeLevel] t = .next { t with gate := .enabled } := by
  obtain ⟨rfl, hg, hp, ho, he⟩ := h
  have hrise : ((t.writeEnPrev (inactiveOf t.cfg)).gateOff).doPin t.cfg.activeLevel =
      (((t.writeEnPrev (inactiveOf t.cfg)).gateOff).writeEnPrev t.cfg.activeLevel).startCounting :=
    (State.doPin_of_change (inactiveOf_ne t.cfg).symm).trans (State.doEdge_of_active rfl)
  rw [runEvents_pin_falls _ he, runEvents_singleton, exec_eq_effect, Machine.effect, hrise, State.gateOff_eq, ← he]
  simp [State.writeEnPrev, State.startCounting, hp, ho]

/-- Settles O25: `RESET` at the active level establishes `KeyedSilent`, the events keep it, and re-keying ends it. -/
theorem keyedAtPowerUpStaysSilent : Obligations.KeyedAtPowerUpStaysSilent := by
  intro s is his
  rw [runEvents_cons]
  have hreset : KeyedSilent s.cfg (effect (.reset s.cfg.activeLevel) s) := ⟨rfl, rfl, rfl, rfl, rfl⟩
  obtain ⟨t, e, ht⟩ := runEvents_keeps_of_mem (fun i hi _ h => h.effect (his i hi)) _ hreset
  obtain ⟨-, hg, hp, ho, he⟩ := id ht
  exact ⟨t, e, hg, hp, ho, he, ht.rekey⟩

end Sys2Proof.Machine

/-! Runs of `TICK` alone (R50). -/

namespace Sys2Proof.Machine

theorem runEvents_ticks (n : Nat) :
    ∀ s : State, runEvents (List.replicate n .tick) s = .next (State.doTick^[n] s) := by
  induction n with
  | zero => exact fun _ => rfl
  | succ n ih =>
    intro s
    rw [List.replicate_succ, runEvents_cons, Function.iterate_succ_apply]
    exact ih s.doTick

/-- R50: `k + 1` ticks leave the sample of the k-th index after PHASE in OUT, PHASE one after it, and nothing else. -/
theorem State.doTick_iterate (k : Nat) : ∀ {s : State}, s.gate = .enabled →
    State.doTick^[k + 1] s =
      (s.outWrite (s.romRead (s.phase + BitVec.ofNat 8 k))).writePhase (s.phase + BitVec.ofNat 8 (k + 1)) := by
  induction k with
  | zero =>
    intro s hg
    simpa using State.doTick_of_enabled hg
  | succ k ih =>
    intro s hg
    have hg' : s.doTick.gate = .enabled := s.doTick_gate.trans hg
    have hsum (m : Nat) : s.phase + 1 + BitVec.ofNat 8 m = s.phase + BitVec.ofNat 8 (m + 1) := by
      rw [BitVec.add_assoc, Nat.add_comm m, BitVec.ofNat_add]
      rfl
    rw [Function.iterate_succ_apply, ih hg', State.doTick_of_enabled hg, State.writePhase_phase, hsum, hsum]
    rfl

/-- 256 ticks are one cycle of the phase accumulator. -/
theorem State.doTick_iterate_cycle {s : State} (hg : s.gate = .enabled) :
    State.doTick^[256] s = { s with out := s.cfg.waveRom.get (s.phase - 1).toFin } := by
  have hlast : s.phase + BitVec.ofNat 8 255 = s.phase - 1 := by bv_omega
  have hback : s.phase + BitVec.ofNat 8 256 = s.phase := by bv_omega
  rw [State.doTick_iterate 255 hg, hlast, hback]
  rfl

/-- Settles O33: the 256 ticks of one cycle. -/
theorem fullCycleOfTicksReturnsPhase : Obligations.FullCycleOfTicksReturnsPhase :=
  fun s hg => (runEvents_ticks 256 s).trans (congrArg Host.Outcome.next (State.doTick_iterate_cycle hg))

/-- Settles O34: a disabled state after a `RESET` has PHASE 0 (`silentWheneverDisabled`), so the ticks after the gate-on
count from index 0. -/
theorem onsetAlwaysStartsFromIndexZero : Obligations.OnsetAlwaysStartsFromIndexZero := by
  intro l is s t e hg k
  obtain ⟨hp, -⟩ := silentWheneverDisabled l is s t e hg
  have hon : effect (.edge t.cfg.activeLevel) t = t.startCounting := State.doEdge_of_active rfl
  have hzero (m : Nat) : t.startCounting.phase + BitVec.ofNat 8 m = BitVec.ofNat 8 m := by simp [hp]
  rw [runEvents_cons, hon, runEvents_ticks, State.doTick_iterate k t.startCounting_gate, hzero, hzero]
  rfl

end Sys2Proof.Machine

/-! Runs of `CLK` alone (R59 to R61, R89). -/

namespace Sys2Proof.Machine

/-- CNT meets TOP one clock before the count that `clocksToEvent` gives. -/
theorem cnt_add_eq_top_iff {s : State} {j : Nat} (hj : j < 65536) :
    s.cnt + BitVec.ofNat 16 j = s.top ↔ j + 1 = s.clocksToEvent := by
  have hc := s.cnt.isLt
  have ht := s.top.isLt
  rw [← BitVec.toNat_inj, BitVec.toNat_add, BitVec.toNat_ofNat, State.clocksToEvent]
  split <;> omega

theorem clocksToEvent_le (s : State) : s.clocksToEvent ≤ 65536 := by
  have ht := s.top.isLt
  rw [State.clocksToEvent]
  split <;> omega

theorem clocksToEvent_pos (s : State) : 1 ≤ s.clocksToEvent := by
  rw [State.clocksToEvent]
  split <;> omega

theorem acceptsTick_clk {s : State} (hg : s.gate = .enabled) : acceptsTick .clk s = decide (s.cnt = s.top) := by
  simp [acceptsTick, hg]

theorem ticksAlong_append {is js : List Instr} {t : State} :
    ∀ {s : State}, runEvents is s = .next t → ticksAlong (is ++ js) s = ticksAlong is s + ticksAlong js t := by
  induction is with
  | nil =>
    intro s e
    cases e
    simp [ticksAlong]
  | cons i is ih =>
    intro s e
    rw [runEvents_cons] at e
    rw [List.cons_append, ticksAlong_cons, ticksAlong_cons, ih e, Nat.add_assoc]

/-- `n` clocks lead from `s` to `t`, and `k` of them are accepted ticks. -/
def ClocksTo (n : Nat) (s t : State) (k : Nat) : Prop :=
  runEvents (List.replicate n .clk) s = .next t ∧ ticksAlong (List.replicate n .clk) s = k

theorem ClocksTo.zero (s : State) : ClocksTo 0 s s 0 := ⟨rfl, rfl⟩

theorem ClocksTo.trans {n m k j : Nat} {s t u : State} (h : ClocksTo n s t k) (h' : ClocksTo m t u j) :
    ClocksTo (n + m) s u (k + j) := by
  obtain ⟨e, hk⟩ := h
  obtain ⟨e', hj⟩ := h'
  rw [ClocksTo, List.replicate_add, runEvents_append_of_next e, ticksAlong_append e, hk, hj]
  exact ⟨e', rfl⟩

/-- A clock that finds CNT short of TOP counts. -/
theorem ClocksTo.count {s : State} (hg : s.gate = .enabled) (hc : s.cnt ≠ s.top) :
    ClocksTo 1 s (s.writeCnt (s.cnt + 1)) 0 := by
  refine ⟨congrArg Host.Outcome.next (State.doClk_of_count hg hc), ?_⟩
  rw [List.replicate_one, ticksAlong_cons, acceptsTick_clk hg, if_neg (by simpa using hc)]
  rfl

/-- A clock that finds CNT at TOP is a period event: a tick, and CNT cleared. -/
theorem State.doClk_eq_tick {s : State} (hg : s.gate = .enabled) (hc : s.cnt = s.top) :
    s.doClk = s.doTick.writeCnt 0 := by
  rw [State.doClk_of_match hg hc, State.doTick_of_enabled hg]
  rfl

theorem ClocksTo.event {s : State} (hg : s.gate = .enabled) (hc : s.cnt = s.top) :
    ClocksTo 1 s (s.doTick.writeCnt 0) 1 := by
  refine ⟨congrArg Host.Outcome.next (State.doClk_eq_tick hg hc), ?_⟩
  rw [List.replicate_one, ticksAlong_cons, acceptsTick_clk hg, if_pos (decide_eq_true hc)]
  rfl

/-- A tick does not read CNT. -/
theorem State.doTick_writeCnt (s : State) (c : TopValue) : (s.writeCnt c).doTick = s.doTick.writeCnt c := by
  obtain ⟨hg, e⟩ | ⟨hg, e⟩ := s.doTick_cases <;> rw [e]
  · exact State.doTick_of_enabled hg
  · exact State.doTick_of_disabled hg

/-- R61: until the next period event only CNT moves. -/
theorem ClocksTo.counting {s : State} (hg : s.gate = .enabled) (n : Nat) :
    n < s.clocksToEvent → ClocksTo n s (s.writeCnt (s.cnt + BitVec.ofNat 16 n)) 0 := by
  induction n with
  | zero =>
    intro _
    simpa [State.writeCnt] using ClocksTo.zero s
  | succ n ih =>
    intro hn
    have hlt : n < 65536 := by have := clocksToEvent_le s; omega
    have hne : s.cnt + BitVec.ofNat 16 n ≠ s.top := fun h => absurd ((cnt_add_eq_top_iff hlt).mp h) (by omega)
    have hlast := ClocksTo.count (s := s.writeCnt (s.cnt + BitVec.ofNat 16 n)) hg hne
    have hsum : s.cnt + BitVec.ofNat 16 n + 1 = s.cnt + BitVec.ofNat 16 (n + 1) := by
      rw [BitVec.add_assoc, BitVec.ofNat_add]
      rfl
    rw [State.writeCnt_cnt, hsum] at hlast
    exact (ih (by omega)).trans hlast

/-- R61: the last of `clocksToEvent` clocks is the period event. -/
theorem ClocksTo.nextEvent {s : State} (hg : s.gate = .enabled) :
    ClocksTo s.clocksToEvent s (s.doTick.writeCnt 0) 1 := by
  obtain ⟨n, hn⟩ : ∃ n, s.clocksToEvent = n + 1 := ⟨_, (Nat.sub_add_cancel (clocksToEvent_pos s)).symm⟩
  have hlt : n < 65536 := by have := clocksToEvent_le s; omega
  have hcount := ClocksTo.counting hg n (by omega)
  have htop : s.cnt + BitVec.ofNat 16 n = s.top := (cnt_add_eq_top_iff hlt).mpr hn.symm
  rw [hn]
  have hevent := hcount.trans (ClocksTo.event (s := s.writeCnt (s.cnt + BitVec.ofNat 16 n)) hg htop)
  rw [State.doTick_writeCnt] at hevent
  exact hevent

/-- Settles O42: R61's count is `clocksToEvent`. -/
theorem clocksUntilPeriodEvent : Obligations.ClocksUntilPeriodEvent := by
  intro s d hg hle hlt
  have hd : d = s.clocksToEvent := by
    rw [State.clocksToEvent]
    split
    · exact hle ‹_›
    · exact hlt (by omega)
  subst hd
  refine ⟨fun n hn => (ClocksTo.counting hg n hn).1, (ClocksTo.nextEvent hg).1.trans ?_⟩
  rw [State.doTick_of_enabled hg]
  rfl

/-- After a period event CNT is 0, so the next one is TOP + 1 clocks on (R59). -/
theorem clocksToEvent_of_cnt_zero {s : State} (h : s.cnt = 0) : s.clocksToEvent = s.top.toNat + 1 := by
  simp [State.clocksToEvent, h]

/-- From CNT 0 the clocks up to the TOP-th only count, and the clock after exactly TOP of them is an event. -/
theorem acceptsTick_after_clocks {s : State} (hg : s.gate = .enabled) (h0 : s.cnt = 0) {n : Nat}
    (hn : n ≤ s.top.toNat) :
    ∃ u, runEvents (List.replicate n .clk) s = .next u ∧ acceptsTick .clk u = decide (n = s.top.toNat) := by
  have hnext := clocksToEvent_of_cnt_zero h0
  have hlt := s.top.isLt
  refine ⟨s.writeCnt (s.cnt + BitVec.ofNat 16 n), (ClocksTo.counting hg n (by omega)).1, ?_⟩
  refine (acceptsTick_clk (s := s.writeCnt (s.cnt + BitVec.ofNat 16 n)) hg).trans (decide_eq_decide.mpr ?_)
  rw [State.writeCnt_cnt, State.writeCnt_top, cnt_add_eq_top_iff (by omega), hnext, Nat.add_right_cancel_iff]

/-- Settles O43: the event clears CNT, and from there `acceptsTick_after_clocks` counts to TOP. -/
theorem periodEventsAreTopPlusOneApart : Obligations.PeriodEventsAreTopPlusOneApart := by
  intro s hg hc
  have hclk := State.doClk_of_match hg hc
  have hgate : s.doClk.gate = .enabled := hclk ▸ hg
  have hcnt : s.doClk.cnt = 0 := hclk ▸ rfl
  have htop : s.doClk.top = s.top := hclk ▸ rfl
  refine ⟨s.doClk, rfl, ?_, fun n hn => ?_, ?_⟩
  · rw [acceptsTick_clk hg, decide_eq_true hc]
  · rw [← htop] at hn
    obtain ⟨u, e, hu⟩ := acceptsTick_after_clocks hgate hcnt hn.le
    exact ⟨u, e, hu.trans (decide_eq_false hn.ne)⟩
  · rw [← htop]
    obtain ⟨u, e, hu⟩ := acceptsTick_after_clocks hgate hcnt le_rfl
    exact ⟨u, e, hu.trans (decide_eq_true rfl)⟩

theorem State.doTick_cnt (s : State) : s.doTick.cnt = s.cnt := by
  obtain ⟨p, o, e⟩ := s.doTick_frame
  rw [e]

theorem State.doTick_top (s : State) : s.doTick.top = s.top := by
  obtain ⟨p, o, e⟩ := s.doTick_frame
  rw [e]

/-- R59: TOP + 1 clocks hold one period event and bring CNT back, wherever in the period they begin. -/
theorem ClocksTo.period {s : State} (hg : s.gate = .enabled) (hle : s.cnt.toNat ≤ s.top.toNat) :
    ClocksTo (s.top.toNat + 1) s s.doTick 1 := by
  have hd : s.clocksToEvent + s.cnt.toNat = s.top.toNat + 1 := by
    rw [State.clocksToEvent, if_pos hle]
    omega
  have hfrom : s.cnt.toNat < (s.doTick.writeCnt 0).clocksToEvent := by
    rw [clocksToEvent_of_cnt_zero rfl, State.writeCnt_top, s.doTick_top]
    omega
  have hrest := ClocksTo.counting (s := s.doTick.writeCnt 0) (s.doTick_gate.trans hg) s.cnt.toNat hfrom
  have hback : (s.doTick.writeCnt 0).writeCnt ((s.doTick.writeCnt 0).cnt + BitVec.ofNat 16 s.cnt.toNat) = s.doTick := by
    rw [State.writeCnt_cnt, BitVec.ofNat_toNat, BitVec.setWidth_eq, ← s.doTick_cnt]
    simp [State.writeCnt]
  rw [hback] at hrest
  exact hd ▸ (ClocksTo.nextEvent hg).trans hrest

/-- `m` periods hold `m` period events, and are `m` ticks but for the clocks. -/
theorem ClocksTo.periods (m : Nat) : ∀ {s : State}, s.gate = .enabled → s.cnt.toNat ≤ s.top.toNat →
    ClocksTo (m * (s.top.toNat + 1)) s (State.doTick^[m] s) m := by
  induction m with
  | zero =>
    intro s _ _
    rw [Nat.zero_mul]
    exact ClocksTo.zero s
  | succ m ih =>
    intro s hg hle
    have hperiod := ClocksTo.period hg hle
    have hrest := ih (s.doTick_gate.trans hg) (by rwa [s.doTick_cnt, s.doTick_top])
    rw [s.doTick_top] at hrest
    rw [Function.iterate_succ_apply, Nat.succ_mul, Nat.add_comm (m * _), Nat.add_comm m]
    exact hperiod.trans hrest

/-- Settles O44: 256 periods are 256 ticks, one cycle of the phase accumulator; R89's formula times the clocks of the
cycle is the timer clock. -/
theorem sineCycleTakesItsClocks : Obligations.SineCycleTakesItsClocks := by
  intro s
  refine ⟨fun hg hle => ?_, ?_⟩
  · rw [← State.doTick_iterate_cycle hg]
    exact ClocksTo.periods 256 hg hle
  · rw [State.outputHz, div_mul_cancel₀ _ (by positivity)]

end Sys2Proof.Machine

/-! The selector and the configuration (R9, R62 to R64, R80). -/

namespace Sys2Proof.Machine

theorem maskedCode_of_mask {c : Config} {m : Byte} (h : c.selMask = m) (p : Byte) : maskedCode c p = p &&& m := by
  rw [maskedCode, h]

/-- The selector reads the port value through its masked code alone (R62). -/
theorem State.doSelect_congr {s : State} {p q : Byte} (h : maskedCode s.cfg p = maskedCode s.cfg q) :
    s.doSelect p = s.doSelect q := by
  rw [State.doSelect, selectedPeriod, h, State.doSelect, selectedPeriod]

/-- The mask 0xBF keeps every bit but bit 6. -/
theorem getLsbD_and_mask (p : Byte) {k : Nat} (hk : k ≠ 6) : (p &&& 0xBF).getLsbD k = p.getLsbD k := by
  by_cases h8 : k < 8
  · have hbit : ∀ j : Fin 8, j ≠ 6 → (0xBF : Byte).getLsbD j = true := by decide
    rw [BitVec.getLsbD_and, hbit ⟨k, h8⟩ (by simpa [Fin.ext_iff] using hk), Bool.and_true]
  · rw [BitVec.getLsbD_of_ge _ _ (by omega), BitVec.getLsbD_of_ge _ _ (by omega)]

/-- Settles O46: bit by bit; flipping bit 6 leaves the masked code, and so the effect of `SELECT`. -/
theorem selectorIgnoresBitSix : Obligations.SelectorIgnoresBitSix := by
  intro p s hmask
  have hcode := maskedCode_of_mask hmask
  refine ⟨hcode p, ?_, fun k hk => ?_, congrArg Host.Outcome.next (State.doSelect_congr ?_)⟩
  · rw [hcode, BitVec.getLsbD_and]
    exact Bool.and_false _
  · rw [hcode, getLsbD_and_mask p hk]
  · rw [hcode, hcode]
    clear hcode
    revert p
    decide

/-- `SELECT` loads the period of the frequency its code is given. -/
theorem exec_select_of_targetDhz {p : Byte} {s : State} {f : Nat} (h : targetDhz s.cfg (maskedCode s.cfg p) = f) :
    exec (.select p) s = .next { s with top := BitVec.ofNat 16 (scaling s.cfg.boundary.timerClockHz / f) } := by
  rw [← h]
  rfl

/-- Settles O47: a code with bit 7 set is no six-bit code, so a documented table has no entry for it; the two port
values mask to 0x3F, which the table gives 670. -/
theorem knownCodeAndFallback : Obligations.KnownCodeAndFallback := by
  intro s hmask hdoc
  obtain ⟨-, hcodes, h3F⟩ := BoundaryData.documented_iff.mp hdoc
  have hcode := maskedCode_of_mask hmask
  refine ⟨fun p hp => exec_select_of_targetDhz ?_, fun p hp => exec_select_of_targetDhz ?_⟩
  · have hnone : s.cfg.boundary.selTable.lookup (maskedCode s.cfg p) = none := by
      rw [Option.eq_none_iff_forall_ne_some]
      intro f hf
      have hsmall : (maskedCode s.cfg p).toNat < 64 := hcodes _ (lookup_mem hf)
      have hbit : (maskedCode s.cfg p).getLsbD 7 = true := by rw [hcode, getLsbD_and_mask p (by decide), hp]
      have hlarge : 2 ^ 7 ≤ (maskedCode s.cfg p).toNat := Nat.ge_two_pow_of_testBit hbit
      omega
    rw [targetDhz, hnone]
    rfl
  · have h : maskedCode s.cfg p = 0x3F := by
      rw [hcode]
      obtain rfl | rfl := hp <;> rfl
    rw [targetDhz, h, h3F]
    rfl

/-- Settles O49: a larger divisor gives a smaller quotient. -/
theorem periodFallsWithFrequency : Obligations.PeriodFallsWithFrequency :=
  fun _ _ _ hpos hle => Nat.div_le_div_left hle hpos

/-- R9's condition, written out. -/
theorem BoundaryData.wf_iff {b : BoundaryData} :
    b.wf = true ↔
      (∀ f, f = b.fallbackDhz ∨ f ∈ b.selTable.map Prod.snd →
        1 ≤ periodOf b.timerClockHz f ∧ periodOf b.timerClockHz f ≤ 65535) ∧
      (b.selTable.map Prod.fst).Nodup := by
  simp only [BoundaryData.wf, BoundaryData.codesDistinct, Bool.and_eq_true, List.all_eq_true, decide_eq_true_eq,
    periodFits_iff, or_imp, forall_and, forall_eq, List.forall_mem_map, and_assoc]
  tauto

/-- Settles O50: `wf_iff`, and the two arms of `configure`. -/
theorem illFormedConfigurationRefused : Obligations.IllFormedConfigurationRefused := by
  intro a rom m b s
  refine ⟨BoundaryData.wf_iff, fun h => ⟨_, dif_pos h, rfl, rfl, rfl, rfl⟩, fun h => dif_neg (by simp [h])⟩

end Sys2Proof.Machine

/-! The printed sine table as a list (R22): its facts are checked in one pass each, and read off at an address. -/

namespace Sys2Proof.Machine

theorem lt_sineSamples_length (a : Byte) : a.toNat < sineSamples.length := sineSamples_length ▸ a.isLt

theorem sineRom_get (a : Byte) : sineRom.get a.toFin = sineSamples[a.toNat]'(lt_sineSamples_length a) := by
  rw [sineRom, Vector.get_eq_getElem, Vector.getElem_mk, List.getElem_toArray]
  rfl

theorem sineSamples_bounds : ∀ v ∈ sineSamples, 1 ≤ v.toNat ∧ v.toNat ≤ 255 := by
  have hall : sineSamples.all (fun v => 1 ≤ v.toNat ∧ v.toNat ≤ 255) = true := by decide +kernel
  simpa using hall

/-- The samples of the indices 0 to 128 read the same backwards. -/
theorem sineSamples_take_reverse : (sineSamples.take 129).reverse = sineSamples.take 129 := by decide +kernel

/-- So do those of the indices 129 to 255. -/
theorem sineSamples_drop_reverse : (sineSamples.drop 129).reverse = sineSamples.drop 129 := by decide +kernel

/-- From index 1 on, the samples read backwards are the samples reflected at 128. -/
theorem sineSamples_tail_reverse :
    sineSamples.tail.reverse.map BitVec.toNat = sineSamples.tail.map (fun v => 256 - v.toNat) := by decide +kernel

theorem getElem_reflect {l : List Byte} (h : l.reverse = l) {j k : Nat} (hj : j < l.length) (hk : k < l.length)
    (hjk : j + k + 1 = l.length) : l[j] = l[k] := by
  have hrev : l[j] = l.reverse[j]'(by simpa using hj) := by simp only [h]
  rw [hrev, List.getElem_reverse]
  congr 1
  omega

/-- R22: the table is symmetric about index 64. -/
theorem sineRom_get_reflect (a : Byte) : sineRom.get a.toFin = sineRom.get (128 - a).toFin := by
  have hlen := sineSamples_length
  have ha := a.isLt
  rw [sineRom_get, sineRom_get]
  by_cases h : a.toNat ≤ 128
  · have hidx : (128 - a).toNat = 128 - a.toNat := by bv_omega
    have hsym := getElem_reflect sineSamples_take_reverse (j := a.toNat) (k := 128 - a.toNat) (by simp; omega)
      (by simp; omega) (by simp; omega)
    simp only [hidx]
    simpa using hsym
  · have hidx : (128 - a).toNat = 384 - a.toNat := by bv_omega
    have hsym := getElem_reflect sineSamples_drop_reverse (j := a.toNat - 129) (k := 255 - a.toNat) (by simp; omega)
      (by simp; omega) (by simp; omega)
    simp only [hidx]
    simpa [show 129 + (a.toNat - 129) = a.toNat by omega, show 129 + (255 - a.toNat) = 384 - a.toNat by omega]
      using hsym

theorem getElem_antisymm {l : List Byte}
    (h : l.reverse.map BitVec.toNat = l.map (fun v => 256 - v.toNat)) {j k : Nat} (hj : j < l.length)
    (hk : k < l.length) (hjk : j + k + 1 = l.length) : l[k].toNat = 256 - l[j].toNat := by
  have hrev : (l.reverse.map BitVec.toNat)[j]'(by simpa using hj) =
      (l.map fun v => 256 - v.toNat)[j]'(by simpa using hj) := by
    simp only [h]
  simpa [show l.length - 1 - j = k by omega] using hrev

theorem sineRom_get_bounds (a : Byte) : 1 ≤ (sineRom.get a.toFin).toNat ∧ (sineRom.get a.toFin).toNat ≤ 255 := by
  rw [sineRom_get]
  exact sineSamples_bounds _ (List.getElem_mem _)

/-- R22: the table is antisymmetric about index 0, with 128 for zero. -/
theorem sineRom_get_neg (a : Byte) : (sineRom.get a.toFin).toNat + (sineRom.get (0 - a).toFin).toNat = 256 := by
  by_cases h0 : a = 0
  · rw [h0]
    decide
  · have hlen := sineSamples_length
    have ha := a.isLt
    have hpos : 0 < a.toNat := by bv_omega
    have hidx : (0 - a).toNat = 256 - a.toNat := by bv_omega
    have hsym : (sineRom.get (0 - a).toFin).toNat = 256 - (sineRom.get a.toFin).toNat := by
      have htail := getElem_antisymm sineSamples_tail_reverse (j := a.toNat - 1) (k := 255 - a.toNat) (by simp; omega)
        (by simp; omega) (by simp; omega)
      rw [sineRom_get, sineRom_get]
      simp only [hidx]
      simpa [Nat.sub_add_cancel hpos, show 255 - a.toNat + 1 = 256 - a.toNat by omega] using htail
    have hle := (sineRom_get_bounds a).2
    omega

/-- Settles O53: the bounds and the symmetries of the table, and the listed values evaluated. -/
theorem romFactsOfTheTable : Obligations.RomFactsOfTheTable := by
  refine ⟨sineRom_get_bounds, ?_, sineRom_get_neg, sineRom_get_reflect, ?_⟩
  · decide +kernel
  · decide +kernel

end Sys2Proof.Machine

/-! The stimulus text (R43): the line that names an event, read back token by token. -/

namespace Sys2Proof.Machine

/-- A character that belongs to a token: no blank and no start of a comment. -/
def isPlain (c : Char) : Bool := c != '#' && c != ' ' && c != '\t'

theorem isPlain_iff {c : Char} : isPlain c = true ↔ c ≠ '#' ∧ ¬(c = ' ' ∨ c = '\t') := by
  simp [isPlain, and_assoc]

theorem tokens_plain {c : Char} (h : isPlain c = true) (cs v : List Char) :
    tokens (c :: cs) v = tokens cs (v ++ [c]) := by
  have hblank := (isPlain_iff.mp h).2
  cases v <;> simp [tokens, hblank]

/-- The characters of a token are gathered onto what has been read of it. -/
theorem tokens_append_plain {w : List Char} (hw : w.all isPlain = true) (cs : List Char) :
    ∀ v, tokens (w ++ cs) v = tokens cs (v ++ w) := by
  induction w with
  | nil => simp
  | cons c w ih =>
    intro v
    rw [List.all_cons, Bool.and_eq_true] at hw
    rw [List.cons_append, tokens_plain hw.1, ih hw.2, List.append_assoc, List.singleton_append]

theorem tokens_end {w : List Char} (h : w ≠ []) : tokens [] w = [w] := by
  cases w with
  | nil => exact absurd rfl h
  | cons c w => rfl

/-- A blank ends a token. -/
theorem tokens_blank {w : List Char} (h : w ≠ []) (cs : List Char) : tokens (' ' :: cs) w = w :: tokens cs [] := by
  cases w with
  | nil => exact absurd rfl h
  | cons c w => rfl

theorem dropComment_of_no_hash {line : List Char} (h : ∀ c ∈ line, c ≠ '#') : dropComment line = line := by
  rw [dropComment, List.takeWhile_eq_self_iff]
  simpa using h

/-- A line of one token. -/
theorem readLine_plain (c : Config) {m : List Char} (hne : m ≠ []) (hm : m.all isPlain = true) :
    readLine c m = readPlain c m := by
  have hdrop : dropComment m = m := dropComment_of_no_hash fun x hx => (isPlain_iff.mp (List.all_eq_true.mp hm x hx)).1
  have htokens : tokens m [] = [m] := by simpa [tokens_end hne] using tokens_append_plain hm [] []
  simp only [readLine, hdrop, htokens]

/-- A line of two tokens with a blank between. -/
theorem readLine_withArg (c : Config) {m a : List Char} (hm0 : m ≠ []) (ha0 : a ≠ []) (hm : m.all isPlain = true)
    (ha : a.all isPlain = true) : readLine c (m ++ ' ' :: a) = readWithArg c m a := by
  have hdrop : dropComment (m ++ ' ' :: a) = m ++ ' ' :: a := by
    refine dropComment_of_no_hash fun x hx => ?_
    obtain hx | rfl | hx : x ∈ m ∨ x = ' ' ∨ x ∈ a := by simpa using hx
    · exact (isPlain_iff.mp (List.all_eq_true.mp hm x hx)).1
    · simp
    · exact (isPlain_iff.mp (List.all_eq_true.mp ha x hx)).1
  have htokens : tokens (m ++ ' ' :: a) [] = [m, a] := by
    have harg : tokens a [] = [a] := by simpa [tokens_end ha0] using tokens_append_plain ha [] []
    rw [tokens_append_plain hm, List.nil_append, tokens_blank hm0, harg]
  simp only [readLine, hdrop, htokens]

/-! Numerals. -/

theorem isPlain_hexChar : ∀ d : BitVec 4, isPlain (hexChar d) = true := by decide

theorem hexDigit_hexChar : ∀ d : BitVec 4, hexDigit (hexChar d) = some d.toNat := by decide

/-- The characters of a hexadecimal numeral. -/
def hexText (ds : List (BitVec 4)) : List Char := '0' :: 'x' :: ds.map hexChar

theorem isPlain_hexText (ds : List (BitVec 4)) : (hexText ds).all isPlain = true := by
  have hdigits : (ds.map hexChar).all isPlain = true := by simp [isPlain_hexChar]
  exact hdigits

theorem readDigits_hexChars (ds : List (BitVec 4)) :
    ∀ acc, readDigits 16 hexDigit acc (ds.map hexChar) = some (ds.foldl (fun n d => 16 * n + d.toNat) acc) := by
  induction ds with
  | nil => exact fun _ => rfl
  | cons d ds ih =>
    intro acc
    simp only [List.map_cons, readDigits, hexDigit_hexChar, List.foldl_cons, ih]

theorem readNumeral_hexText {ds : List (BitVec 4)} (h : ds ≠ []) :
    readNumeral (hexText ds) = some (ds.foldl (fun n d => 16 * n + d.toNat) 0) := by
  cases ds with
  | nil => exact absurd rfl h
  | cons d ds => exact readDigits_hexChars (d :: ds) 0

/-- A numeral of hexadecimal digits that are a value's reads back as the value. -/
theorem readBits_hexText {n : Nat} {ds : List (BitVec 4)} {v : BitVec n} (h : ds ≠ [])
    (hv : ds.foldl (fun n d => 16 * n + d.toNat) 0 = v.toNat) : readBits n (hexText ds) = some v := by
  simp only [readBits, readNumeral_hexText h, hv, if_pos v.isLt, BitVec.ofNat_toNat, BitVec.setWidth_eq]

theorem isPlain_levelText (l : Level) : (levelText l).all isPlain = true := by
  revert l
  decide

theorem levelText_ne_nil (l : Level) : levelText l ≠ [] := by
  revert l
  decide

theorem readLevel_levelText (l : Level) : readLevel (levelText l) = some l := by
  revert l
  decide

/-- A sixteen-bit value is its four hexadecimal digits. -/
theorem foldl_digits16 (v : BitVec 16) :
    [v.extractLsb' 12 4, v.extractLsb' 8 4, v.extractLsb' 4 4, v.extractLsb' 0 4].foldl
      (fun n d => 16 * n + d.toNat) 0 = v.toNat := by
  have hv := v.isLt
  simp [Nat.shiftRight_eq_div_pow]
  omega

/-- A byte is its two hexadecimal digits. -/
theorem foldl_digits8 (p : BitVec 8) :
    [p.extractLsb' 4 4, p.extractLsb' 0 4].foldl (fun n d => 16 * n + d.toNat) 0 = p.toNat := by
  have hp := p.isLt
  simp [Nat.shiftRight_eq_div_pow]
  omega

/-- The line of an event with a level. -/
theorem readLine_level (c : Config) {m : List Char} (hm0 : m ≠ []) (hm : m.all isPlain = true) (l : Level) :
    readLine c (m ++ ' ' :: levelText l) = readWithArg c m (levelText l) :=
  readLine_withArg c hm0 (levelText_ne_nil l) hm (isPlain_levelText l)

/-- The line of an event with a number. -/
theorem readLine_number (c : Config) {m : List Char} (hm0 : m ≠ []) (hm : m.all isPlain = true)
    (ds : List (BitVec 4)) :
    readLine c (m ++ ' ' :: hexText ds) = readWithArg c m (hexText ds) :=
  readLine_withArg c hm0 (List.cons_ne_nil _ _) hm (isPlain_hexText ds)

theorem eventText_setTop (v : TopValue) :
    eventText (.setTop v) = ['S', 'E', 'T', 'T', 'O', 'P'] ++ ' ' ::
      hexText [v.extractLsb' 12 4, v.extractLsb' 8 4, v.extractLsb' 4 4, v.extractLsb' 0 4] := rfl

theorem eventText_select (p : Byte) :
    eventText (.select p) =
      ['S', 'E', 'L', 'E', 'C', 'T'] ++ ' ' :: hexText [p.extractLsb' 4 4, p.extractLsb' 0 4] := rfl

theorem readWithArg_setTop (c : Config) (a : List Char) :
    readWithArg c ['S', 'E', 'T', 'T', 'O', 'P'] a = (readBits 16 a).map fun v => [.setTop v] := by
  simp [readWithArg]

theorem readWithArg_select (c : Config) (a : List Char) :
    readWithArg c ['S', 'E', 'L', 'E', 'C', 'T'] a = (readBits 8 a).map fun p => [.select p] := by
  simp [readWithArg]

/-- Settles O15: the line is its mnemonic and the text of its operand, which read back as the event. -/
theorem eventTextReadsBack : Obligations.EventTextReadsBack := by
  intro c i
  cases i with
  | reset l =>
    refine (readLine_level c (m := ['R', 'E', 'S', 'E', 'T']) (by simp) rfl l).trans ?_
    exact congrArg (Option.map _) (readLevel_levelText l)
  | tick => exact readLine_plain c (m := ['T', 'I', 'C', 'K']) (by simp) rfl
  | edge l =>
    refine (readLine_level c (m := ['E', 'D', 'G', 'E']) (by simp) rfl l).trans ?_
    exact congrArg (Option.map _) (readLevel_levelText l)
  | pin l =>
    refine (readLine_level c (m := ['P', 'I', 'N']) (by simp) rfl l).trans ?_
    exact congrArg (Option.map _) (readLevel_levelText l)
  | setTop v =>
    rw [eventText_setTop, readLine_number c (by simp) rfl, readWithArg_setTop,
      readBits_hexText (by simp) (foldl_digits16 v), Option.map_some]
  | clk => exact readLine_plain c (m := ['C', 'L', 'K']) (by simp) rfl
  | select p =>
    rw [eventText_select, readLine_number c (by simp) rfl, readWithArg_select,
      readBits_hexText (by simp) (foldl_digits8 p), Option.map_some]

end Sys2Proof.Machine

/-! R22's formula (D2). One ROM index is a rotation by pi / 128. A rational point near that rotation has exact integer
powers, against which each sample is checked; the powers of the rotation itself stay close to them. -/

namespace Sys2Proof.Machine

/-- The cosine of pi / 128 in units of 10^-10, truncated. -/
def stepCos : ℤ := 9996988186

/-- The sine of pi / 128 in units of 10^-10, truncated. -/
def stepSin : ℤ := 245412285

/-- The real and imaginary part of the k-th power of `stepCos + stepSin i`. -/
def rotor : Nat → ℤ × ℤ
  | 0 => (1, 0)
  | k + 1 =>
    ((rotor k).1 * stepCos - (rotor k).2 * stepSin, (rotor k).1 * stepSin + (rotor k).2 * stepCos)

/-- The sample `v` is the rounded 128 + 127 y / d, with a thousandth to spare on either side. -/
def roundsTo (v : Byte) (y d : ℤ) : Bool :=
  decide ((1000 * v.toNat - 128499) * d ≤ 127000 * y) && decide (127000 * y < (1000 * v.toNat - 127501) * d)

/-- Every sample of the list against the powers that follow `x + y i`, whose denominator is `d`. -/
def samplesRound : List Byte → ℤ → ℤ → ℤ → Bool
  | [], _, _, _ => true
  | v :: vs, x, y, d =>
    roundsTo v y d && samplesRound vs (x * stepCos - y * stepSin) (x * stepSin + y * stepCos) (d * 10 ^ 10)

theorem roundsTo_of_samplesRound {vs : List Byte} :
    ∀ {k : Nat}, samplesRound vs (rotor k).1 (rotor k).2 ((10 ^ 10) ^ k) = true →
      ∀ {j : Nat} (hj : j < vs.length), roundsTo vs[j] (rotor (k + j)).2 ((10 ^ 10) ^ (k + j)) = true := by
  induction vs with
  | nil => exact fun _ j hj => absurd hj (Nat.not_lt_zero j)
  | cons v vs ih =>
    intro k h j hj
    rw [samplesRound, Bool.and_eq_true, ← pow_succ] at h
    cases j with
    | zero => exact h.1
    | succ j =>
      have hrest := ih (k := k + 1) h.2 (Nat.lt_of_succ_lt_succ hj)
      rw [Nat.add_assoc, Nat.add_comm 1 j] at hrest
      exact hrest

theorem sineSamples_round : samplesRound sineSamples 1 0 1 = true := by decide +kernel

/-- Every sample of the printed table rounds its power. -/
theorem sineRom_roundsTo (i : Fin 256) : roundsTo (sineRom.get i) (rotor i).2 ((10 ^ 10) ^ (i : Nat)) = true := by
  have hround := roundsTo_of_samplesRound (k := 0) sineSamples_round (lt_sineSamples_length (BitVec.ofFin i))
  rw [← sineRom_get, Nat.zero_add] at hround
  exact hround

/-- The rational point near the rotation by pi / 128. -/
noncomputable def stepPoint : ℂ := ⟨stepCos / 10 ^ 10, stepSin / 10 ^ 10⟩

theorem stepPoint_pow (k : Nat) :
    stepPoint ^ k = ⟨(rotor k).1 / (10 ^ 10) ^ k, (rotor k).2 / (10 ^ 10) ^ k⟩ := by
  induction k with
  | zero => simp [rotor, Complex.ext_iff]
  | succ k ih =>
    rw [pow_succ, ih, stepPoint, rotor, Complex.ext_iff, Complex.mul_re, Complex.mul_im]
    push_cast
    constructor
    · field_simp
      ring
    · field_simp
      ring

theorem norm_stepPoint_le : ‖stepPoint‖ ≤ 1 := by
  rw [← sq_le_one_iff₀ (norm_nonneg _), ← Complex.normSq_eq_norm_sq, Complex.normSq_apply, stepPoint, stepCos,
    stepSin]
  norm_num

/-- The rotation by pi / 128. -/
noncomputable def stepRotation : ℂ := Complex.exp ((Real.pi / 128 : ℝ) * Complex.I)

theorem norm_stepRotation : ‖stepRotation‖ = 1 := Complex.norm_exp_ofReal_mul_I _

theorem stepRotation_pow_im (k : Nat) : (stepRotation ^ k).im = Real.sin (2 * Real.pi * k / 256) := by
  rw [stepRotation, ← Complex.exp_nat_mul, ← mul_assoc, ← Complex.ofReal_natCast, ← Complex.ofReal_mul,
    Complex.exp_ofReal_mul_I_im]
  congr 1
  ring

/-- The sine on a small interval, by its Taylor polynomial of degree 3. -/
theorem sin_bounds {lo hi x : ℝ} (h0 : 0 ≤ lo) (hlo : lo ≤ x) (hhi : x ≤ hi) (h1 : hi ≤ 1) :
    lo - hi ^ 3 / 6 - hi ^ 5 / 100 ≤ Real.sin x ∧ Real.sin x ≤ hi - lo ^ 3 / 6 + hi ^ 5 / 100 := by
  have hx : 0 ≤ x := h0.trans hlo
  have habs : |x| = x := abs_of_nonneg hx
  obtain ⟨hlower, hupper⟩ := abs_le.mp (Real.sin_bound (habs.trans_le (hhi.trans h1)))
  rw [habs] at hlower hupper
  have h3 : lo ^ 3 ≤ x ^ 3 := pow_le_pow_left₀ h0 hlo 3
  have h3' : x ^ 3 ≤ hi ^ 3 := pow_le_pow_left₀ hx hhi 3
  have h5 : x ^ 5 ≤ hi ^ 5 := pow_le_pow_left₀ hx hhi 5
  constructor <;> linarith

theorem abs_sin_sub_step_le : |Real.sin (Real.pi / 128) - stepSin / 10 ^ 10| ≤ 1 / 10 ^ 8 := by
  obtain ⟨hlower, hupper⟩ := sin_bounds (lo := 3.141592 / 128) (hi := 3.141593 / 128) (x := Real.pi / 128)
    (by norm_num) (by linarith [Real.pi_gt_d6]) (by linarith [Real.pi_lt_d6]) (by norm_num)
  rw [stepSin, abs_le]
  norm_num at hlower hupper ⊢
  constructor <;> linarith

/-- The cosine is one less twice the square of the sine at half the angle. -/
theorem abs_cos_sub_step_le : |Real.cos (Real.pi / 128) - stepCos / 10 ^ 10| ≤ 1 / 10 ^ 8 := by
  obtain ⟨hlower, hupper⟩ := sin_bounds (lo := 3.141592 / 256) (hi := 3.141593 / 256) (x := Real.pi / 256)
    (by norm_num) (by linarith [Real.pi_gt_d6]) (by linarith [Real.pi_lt_d6]) (by norm_num)
  have hcos : Real.cos (Real.pi / 128) = 1 - 2 * Real.sin (Real.pi / 256) ^ 2 := by
    rw [show Real.pi / 128 = 2 * (Real.pi / 256) by ring, Real.cos_two_mul, Real.cos_sq']
    ring
  have hlower2 := pow_le_pow_left₀ (by norm_num) hlower 2
  have hupper2 := pow_le_pow_left₀ ((by norm_num : (0 : ℝ) ≤ _).trans hlower) hupper 2
  rw [hcos, stepCos, abs_le]
  norm_num at hlower2 hupper2 ⊢
  constructor <;> linarith

theorem norm_stepRotation_sub_le : ‖stepRotation - stepPoint‖ ≤ 3 / 10 ^ 8 := by
  have hre : (stepRotation - stepPoint).re = Real.cos (Real.pi / 128) - stepCos / 10 ^ 10 := by
    rw [Complex.sub_re, stepRotation, Complex.exp_ofReal_mul_I_re, stepPoint]
  have him : (stepRotation - stepPoint).im = Real.sin (Real.pi / 128) - stepSin / 10 ^ 10 := by
    rw [Complex.sub_im, stepRotation, Complex.exp_ofReal_mul_I_im, stepPoint]
  calc ‖stepRotation - stepPoint‖
      ≤ |(stepRotation - stepPoint).re| + |(stepRotation - stepPoint).im| := Complex.norm_le_abs_re_add_abs_im _
    _ ≤ 1 / 10 ^ 8 + 1 / 10 ^ 8 := by
      rw [hre, him]
      exact add_le_add abs_cos_sub_step_le abs_sin_sub_step_le
    _ ≤ 3 / 10 ^ 8 := by norm_num

/-- The distance of powers of points of the unit disc grows at most linearly. -/
theorem norm_pow_sub_pow_le {z w : ℂ} (hz : ‖z‖ ≤ 1) (hw : ‖w‖ ≤ 1) (k : Nat) :
    ‖z ^ k - w ^ k‖ ≤ k * ‖z - w‖ := by
  induction k with
  | zero => simp
  | succ k ih =>
    have hzk : ‖z ^ k‖ ≤ 1 := by
      rw [norm_pow]
      exact pow_le_one₀ (norm_nonneg z) hz
    calc ‖z ^ (k + 1) - w ^ (k + 1)‖
        = ‖z ^ k * (z - w) + (z ^ k - w ^ k) * w‖ := by ring_nf
      _ ≤ ‖z ^ k‖ * ‖z - w‖ + ‖z ^ k - w ^ k‖ * ‖w‖ := by
        simpa only [norm_mul] using norm_add_le (z ^ k * (z - w)) ((z ^ k - w ^ k) * w)
      _ ≤ 1 * ‖z - w‖ + k * ‖z - w‖ * 1 := by gcongr
      _ = (k + 1 : ℕ) * ‖z - w‖ := by
        push_cast
        ring

/-- At every index of the ROM the power of the rational point is the sine to within 1 / 127000. -/
theorem abs_sin_sub_rotor_le (i : Fin 256) :
    |Real.sin (2 * Real.pi * (i : ℕ) / 256) - (rotor i).2 / (10 ^ 10) ^ (i : ℕ)| ≤ 1 / 127000 := by
  have hi : ((i : ℕ) : ℝ) ≤ 256 := by exact_mod_cast i.isLt.le
  calc |Real.sin (2 * Real.pi * (i : ℕ) / 256) - (rotor i).2 / (10 ^ 10) ^ (i : ℕ)|
      = |(stepRotation ^ (i : ℕ) - stepPoint ^ (i : ℕ)).im| := by
        rw [Complex.sub_im, stepRotation_pow_im, stepPoint_pow]
    _ ≤ ‖stepRotation ^ (i : ℕ) - stepPoint ^ (i : ℕ)‖ := Complex.abs_im_le_norm _
    _ ≤ (i : ℕ) * ‖stepRotation - stepPoint‖ := norm_pow_sub_pow_le norm_stepRotation.le norm_stepPoint_le _
    _ ≤ 256 * (3 / 10 ^ 8) := by
      gcongr
      exact norm_stepRotation_sub_le
    _ ≤ 1 / 127000 := by norm_num

/-- Settles O52: the sample rounds the rational approximation with a thousandth to spare, and the sine is nearer to that
than the thousandth. -/
theorem romIsTheRoundedSine : Obligations.RomIsTheRoundedSine := by
  intro i
  obtain ⟨hlow, hhigh⟩ := abs_le.mp (abs_sin_sub_rotor_le i)
  have hd : (0 : ℝ) < (10 ^ 10) ^ (i : ℕ) := by positivity
  have hround := sineRom_roundsTo i
  rw [roundsTo, Bool.and_eq_true, decide_eq_true_eq, decide_eq_true_eq] at hround
  obtain ⟨hge, hlt⟩ := hround
  have hge' : (1000 * (sineRom.get i).toNat - 128499 : ℝ) ≤ 127000 * ((rotor i).2 / (10 ^ 10) ^ (i : ℕ)) := by
    rw [← mul_div_assoc, le_div_iff₀ hd]
    exact_mod_cast hge
  have hlt' : 127000 * ((rotor i).2 / (10 ^ 10) ^ (i : ℕ)) < (1000 * (sineRom.get i).toNat - 127501 : ℝ) := by
    rw [← mul_div_assoc, div_lt_iff₀ hd]
    exact_mod_cast hlt
  rw [eq_comm, Int.floor_eq_iff]
  push_cast
  constructor <;> linarith

end Sys2Proof.Machine
